-- ==== Sys2Proof/Word.lean ====
section
/-! DEFINITION. The words of the UJ-840: the widths that its registers, frames and image fields have.
Fields that the manual numbers, adds, compares or sends as bits are bit vectors of the manual's width.
-/

namespace Sys2Proof

/-- One byte of the station port, the image or a record (chapter 10). -/
abbrev Byte := BitVec 8

/-- A 16-bit field: counters, working values, operands, status counters (R94, R96, R174). -/
abbrev Half := BitVec 16

/-- A fabric time or an epoch number: 32 bits, wrapping (R1, R3). -/
abbrev Time := BitVec 32

/-- A station id or a frame's origin: 6 bits on the line (R27), 1 to 62 when valid. -/
abbrev StationId := BitVec 6

/-- An event tag: 10 bits on the line (R27), 0 to 1023. -/
abbrev Tag := BitVec 10

/-- A channel, CH0 to CH7 (chapter 6). -/
abbrev ChannelId := Fin 8

/-- One bit of the fabric line: `true` is recessive (written 1), `false` is dominant (written 0) (R26). -/
abbrev LineBit := Bool

end Sys2Proof
end

