-- ==== Sys2Proof/Config.lean ====
section
/-! DEFINITION. The constants the manual fixes for every UJ-840: capacities, limits and codes.
No rule of the spec leaves the value of a result open, so there is no free value here.
-/

namespace Sys2Proof.Config

/-- The image memory holds 912 bytes, at offsets 0 to 911 (R163). -/
def imageBytes : Nat := 912

/-- The peer roster holds up to 32 entries (R44). -/
def rosterCapacity : Nat := 32

/-- The Action Schedule holds up to 32 pending actions (R73). -/
def scheduleCapacity : Nat := 32

/-- The publish queue holds up to 16 entries (R152). -/
def queueCapacity : Nat := 16

/-- The record queue holds up to 64 records (R170). -/
def recordCapacity : Nat := 64

/-- The working trigger table holds 64 entries (R60). -/
def triggerEntries : Nat := 64

/-- Fault attempts at which an item's bit fault mutes the station (R33, R36). -/
def muteFaults : Nat := 8

/-- The boundaries a mute spell lasts (R36). -/
def muteBoundaries : Nat := 16

/-- Discord count at which the station resyncs (R19). -/
def resyncCount : Nat := 3

/-- Positions 1 to 8 of a frame are its head (R27, R32). -/
def headLast : Nat := 8

/-- A fill bit follows every run of seven consecutive recessive bits (R29). -/
def fillRun : Nat := 7

/-- R38: consecutive recessive bit times that make the line idle. -/
def idleRun : Nat := 10

/-- The record format of R172 has 16 bytes. -/
def recordBytes : Nat := 16

/-- What an image byte that no cell lists reads as: 0, its start-up value (R163). -/
def imageDefault : Byte := 0

end Sys2Proof.Config
end

