-- ==== Sys2Proof/Syntax.lean ====
section
/-! DEFINITION. The commands of the UJ-840: one constructor of `Instr` for each row of
spec/opcode_table.json, and the frame fields and order choices that they carry.
-/

namespace Sys2Proof

/-- The body of a MARK frame (R27). -/
structure MarkFields where
  boundary : Time
  age : Half
  deriving DecidableEq, Repr

/-- The body of an EVENT frame (R27): the value is present exactly when the has-value flag is set. -/
structure EventFields where
  timed : Bool
  restart : Bool
  repeatIndex : BitVec 2
  sequence : Byte
  tag : Tag
  occurrence : Time
  value : Option Half
  deriving DecidableEq, Repr

/-- The body of a ROLL frame (R27). -/
structure RollFields where
  syncState : BitVec 3
  rosterSize : BitVec 6
  occupancy : BitVec 6
  deriving DecidableEq, Repr

/-- A frame's class with its body (R27). Class code 11 is never sent. -/
inductive FrameBody where
  | mark (m : MarkFields)
  | event (e : EventFields)
  | roll (r : RollFields)
  deriving DecidableEq, Repr

/-- A frame: its origin and its body (R27). The start bit and the check follow from these. -/
structure Frame where
  origin : StationId
  body : FrameBody
  deriving DecidableEq, Repr

/-- The orders that the chapters leave open inside one MARK arrival.
`rosterFirst`: the roster takes the MARK before the FTU (R41, R46, R49).
`releaseFirst`: the schedule takes the times of a forward step before the other blocks take the boundary or
mid-epoch instant it reaches (R4).
`agingFirst`: at a mid-epoch instant reached by the step, the roster acts before the FTU's check (R4, R50). -/
structure MarkOrder where
  rosterFirst : Bool
  releaseFirst : Bool
  agingFirst : Bool
  deriving DecidableEq, Repr

/-- What a channel takes of the present instant within a release, before one of its actions (R99, R134; log entry 33):
its tap instant, or a pin change to this level. -/
inductive ChannelMoment where
  | tap (channel : ChannelId)
  | pin (channel : ChannelId) (level : Bool)
  deriving DecidableEq, Repr

/-- The orders that the chapters leave open at a fabric tick and that no row of the table says.
`late`: bit c set leaves channel c's count and first sample of this tick to be taken later in the instant (R99, R140,
R147; log entry 6).
`moments`: entry n is what channels take before the action n that this tick releases and after the one before it (R99,
R134; log entry 33). -/
structure TickOrder where
  late : BitVec 8
  moments : List (List ChannelMoment)
  deriving DecidableEq, Repr

/-- The commands, one constructor for each row of spec/opcode_table.json. -/
inductive Instr where
  /-- WRITE_IMAGE (R162, R163): the request's offset and length, and the data bytes shifted in. -/
  | writeImage (offset : Half) (length : Byte) (data : List Byte)
  /-- READ_IMAGE (R162, R163). -/
  | readImage (offset : Half) (length : Byte)
  /-- COMMIT (R167, R168). -/
  | commit
  /-- LEAVE (R168). -/
  | leave
  /-- POST (R169). -/
  | post (tag : Half) (flags : Byte) (value : Half)
  /-- READ_RECORD (R171). -/
  | readRecord
  /-- READ_STATUS (R174). -/
  | readStatus
  /-- READ_ROSTER (R175). -/
  | readRoster (index : Byte)
  /-- READ_SCHEDULE (R92, R175). -/
  | readSchedule (index : Byte)
  /-- READ_CHANNEL (R114, R175). -/
  | readChannel (channel : Byte)
  /-- UNKNOWN_REQUEST (R162): a request code that is none of the ten. -/
  | unknownRequest (code : Byte)
  /-- TRANSACTION_CUT_SHORT (R161): CS rises before the request is taken. -/
  | transactionCutShort
  /-- RECORD_REMOVED (R171): CS rises after the 16 bytes of a READ_RECORD response. -/
  | recordRemoved
  /-- START_UP_RESET (R176): RESET goes low. -/
  | startUpReset
  /-- FABRIC_TICK (R1). -/
  | fabricTick (order : TickOrder)
  /-- SWALLOWED_TICK (R1, R16). -/
  | swallowedTick
  /-- BOUNDARY_REACHED (R22): the FTU takes the boundary that the tick reached. -/
  | boundaryReached
  /-- LINE_UNMUTE (R37): the LIU takes the last boundary of a mute spell. -/
  | lineUnmute
  /-- MID_EPOCH_INSTANT (R20, R48, R50): taken by the roster first or by the FTU first. -/
  | midEpochInstant (rosterFirst : Bool)
  /-- LISTEN_END (R13). -/
  | listenEnd
  /-- RELEASE (R84). -/
  | release
  /-- LINE_IDLE (R38): the tenth consecutive recessive bit time ends. -/
  | lineIdle
  /-- TRANSMISSION_ATTEMPT (R31): the bit time in which the offered item's start bit is driven. -/
  | transmissionAttempt
  /-- LOST_ARBITRATION (R32): recessive driven and dominant read at this position of the head. -/
  | lostArbitration (position : Nat)
  /-- BIT_FAULT (R33): a read-back mismatch at this bit of the frame as sent, start bit 0, fill bits counted. -/
  | bitFault (bit : Nat)
  /-- COMPLETED (R34): the last check bit is read back without mismatch. -/
  | completed
  /-- DRAINING_END (R42). -/
  | drainingEnd
  /-- FRAME_DISCARDED (R39): the levels read after the start bit, fill bits among them. -/
  | frameDiscarded (bits : List LineBit)
  /-- MARK_ARRIVAL (R9): a MARK whose check completed. -/
  | markArrival (origin : StationId) (mark : MarkFields) (order : MarkOrder)
  /-- EVENT_ARRIVAL (R54): an EVENT whose check completed. -/
  | eventArrival (origin : StationId) (event : EventFields)
  /-- ROLL_ARRIVAL (R52): a ROLL whose check completed. -/
  | rollArrival (origin : StationId) (roll : RollFields)
  /-- START (R102): the tap instant of a channel in STARTING; in COUNTING, the count that FABRIC_TICK left (log entry
  32). -/
  | start (channel : ChannelId)
  /-- ONE_SHOT_UNDERFLOW (R118). It and the six rows after it are the tap instant of a channel in the mode and state
  they name: the underflow at counter 0, the count otherwise (R99; log entry 32). -/
  | oneShotUnderflow (channel : ChannelId)
  /-- LEAD_UNDERFLOW (R122). -/
  | leadUnderflow (channel : ChannelId)
  /-- DELAYED_ACTIVE_UNDERFLOW (R122). -/
  | delayedActiveUnderflow (channel : ChannelId)
  /-- REPEAT_UNDERFLOW (R126). -/
  | repeatUnderflow (channel : ChannelId)
  /-- PHASE_A_UNDERFLOW (R129). -/
  | phaseAUnderflow (channel : ChannelId)
  /-- PERIOD_BOUNDARY (R131). -/
  | periodBoundary (channel : ChannelId)
  /-- QUALIFIED (R145). -/
  | qualified (channel : ChannelId)
  /-- PIN_CHANGE (R111): the pin is driven to this level from outside. -/
  | pinChange (channel : ChannelId) (level : Bool)
  /-- START_BIT (R38): a dominant bit that another station drives is read on an idle line. -/
  | startBit
  /-- WON_ARBITRATION (R32): positions 1 to 8 have read back as driven. -/
  | wonArbitration
  /-- RESET_RETURNS_HIGH (R176). -/
  | resetReturnsHigh
  deriving DecidableEq, Repr

end Sys2Proof
end

