-- ==== Sys2Proof/Machine/Bytes.lean ====
section
/-! DEFINITION. Byte order and bit order: most significant byte first on the station port and in the image,
most significant bit first on the line and on the port (R27, R161). And the request and status codes of R162.
-/

namespace Sys2Proof.Machine

/-- R161: a 16-bit field, most significant byte first. -/
def be16 (x : Half) : List Byte := [x.extractLsb' 8 8, x.extractLsb' 0 8]

/-- R161: a 32-bit field, most significant byte first. -/
def be32 (x : Time) : List Byte :=
  [x.extractLsb' 24 8, x.extractLsb' 16 8, x.extractLsb' 8 8, x.extractLsb' 0 8]

/-- The 16-bit field whose bytes are these, the most significant first (R161). -/
def half (hi lo : Byte) : Half := hi ++ lo

/-- A flag as a byte with the given weight: 0 when clear. -/
def flagByte (weight : Byte) (b : Bool) : Byte := if b then weight else 0

/-- The bits of a field, most significant bit first (R27, R161). -/
def bitsOf {w : Nat} (x : BitVec w) : List LineBit := (List.range w).map x.getMsbD

/-- The number whose bits are these, most significant bit first (R27). -/
def natOfBits (bits : List LineBit) : Nat := bits.foldl (fun n b => 2 * n + b.toNat) 0

/-- R161: the bytes that a run of bits makes, each most significant bit first. Bits of a byte that is not complete make
none. -/
def bytesOfBits : List Bool → List Byte
  | a :: b :: c :: d :: e :: f :: g :: h :: rest =>
    BitVec.ofNat 8 (natOfBits [a, b, c, d, e, f, g, h]) :: bytesOfBits rest
  | _ => []

/-- A 16-bit count that stays at its maximum once reached (R174). -/
def satInc (x : Half) : Half := if x = 0xFFFF then x else x + 1

/-- A saturating 16-bit count increased by `n` (R87). -/
def satAdd (x : Half) (n : Nat) : Half := BitVec.ofNat 16 (min (x.toNat + n) 65535)

/-- A saturating 8-bit count: the holdover count and the wrap count (R6, R135). -/
def satIncByte (x : Byte) : Byte := if x = 0xFF then x else x + 1

/-- Status code OK (R162). -/
def statusOk : Byte := 0x00
/-- Status code LOCKED (R162). -/
def statusLocked : Byte := 0x01
/-- Status code BAD_IMAGE (R162). -/
def statusBadImage : Byte := 0x02
/-- Status code NOT_JOINED (R162). -/
def statusNotJoined : Byte := 0x03
/-- Status code EMPTY (R162). -/
def statusEmpty : Byte := 0x04
/-- Status code BAD_REQUEST (R162). -/
def statusBadRequest : Byte := 0x05

/-- The ten request codes of R162. -/
def requestCodes : List Byte :=
  [0x01, 0x02, 0x10, 0x11, 0x20, 0x30, 0x31, 0x32, 0x33, 0x34]

end Sys2Proof.Machine
end

