-- ==== Sys2Proof/Decode.lean ====
section
/-! DEFINITION. Decoding. No row of spec/opcode_table.json gives a command any bits, so a table word spells none. The
station port has a byte encoding of its own (R161, R162): `requestOf` reads the bytes of a transaction and
`transactionBytes` writes them.
-/

namespace Sys2Proof

/-- The command a word spells by the table's bits: the table gives no row any bits (log entry 27). -/
def decodeTableWord (_nbits _w : Nat) : Option Instr := none

/-- R161, R162: the command that a transaction's bytes ask for, in the order they are shifted in. Too few bytes are
a transaction cut short; bytes after the taking are ignored. -/
def requestOf (bytes : List Byte) : Instr :=
  match bytes with
  | [] => .transactionCutShort
  | code :: args =>
    if code = 0x01 then
      match args with
      | hi :: lo :: length :: data =>
        if data.length < length.toNat then .transactionCutShort
        else .writeImage (Machine.half hi lo) length (data.take length.toNat)
      | _ => .transactionCutShort
    else if code = 0x02 then
      match args with
      | hi :: lo :: length :: _ => .readImage (Machine.half hi lo) length
      | _ => .transactionCutShort
    else if code = 0x10 then .commit
    else if code = 0x11 then .leave
    else if code = 0x20 then
      match args with
      | tagHi :: tagLo :: flags :: valueHi :: valueLo :: _ =>
        .post (Machine.half tagHi tagLo) flags (Machine.half valueHi valueLo)
      | _ => .transactionCutShort
    else if code = 0x30 then .readRecord
    else if code = 0x31 then .readStatus
    else if code = 0x32 then
      match args with
      | index :: _ => .readRoster index
      | [] => .transactionCutShort
    else if code = 0x33 then
      match args with
      | index :: _ => .readSchedule index
      | [] => .transactionCutShort
    else if code = 0x34 then
      match args with
      | channel :: _ => .readChannel channel
      | [] => .transactionCutShort
    else .unknownRequest code

/-- R161, R162: the bytes of a request, most significant byte first; none for a command that is no request. -/
def transactionBytes : Instr → Option (List Byte)
  | .writeImage offset length data => some (0x01 :: Machine.be16 offset ++ [length] ++ data)
  | .readImage offset length => some (0x02 :: Machine.be16 offset ++ [length])
  | .commit => some [0x10]
  | .leave => some [0x11]
  | .post tag flags value => some (0x20 :: Machine.be16 tag ++ [flags] ++ Machine.be16 value)
  | .readRecord => some [0x30]
  | .readStatus => some [0x31]
  | .readRoster index => some [0x32, index]
  | .readSchedule index => some [0x33, index]
  | .readChannel channel => some [0x34, channel]
  | .unknownRequest code => some [code]
  | .transactionCutShort | .recordRemoved | .startUpReset | .fabricTick _ | .swallowedTick
  | .boundaryReached | .lineUnmute | .midEpochInstant _ | .listenEnd | .release | .lineIdle
  | .transmissionAttempt | .lostArbitration _ | .bitFault _ | .completed | .drainingEnd | .frameDiscarded _
  | .markArrival .. | .eventArrival .. | .rollArrival .. | .start _ | .oneShotUnderflow _ | .leadUnderflow _
  | .delayedActiveUnderflow _ | .repeatUnderflow _ | .phaseAUnderflow _ | .periodBoundary _ | .qualified _
  | .pinChange .. | .startBit | .wonArbitration | .resetReturnsHigh => none

end Sys2Proof
end

