-- ==== Sys2Proof/Machine/Line.lean ====
section
/-! DEFINITION. The bits of the fabric line: frame layout (R27), fill bits (R29), the check (R30), and the
receiver that turns the levels read after a start bit back into a frame (R28, R38 to R40).
-/

namespace Sys2Proof.Machine

/-- R26: dominant overrides recessive. The line reads recessive only when every station leaves it so. -/
def lineLevel (driven : List LineBit) : LineBit := driven.all id

/-- R27: an origin that a station may send, 1 to 62. -/
def validOrigin (i : StationId) : Bool := decide (1 ≤ i.toNat) && decide (i.toNat ≤ 62)

/-- R40: the fields of a well-formed frame. -/
def frameWellFormed (f : Frame) : Bool :=
  validOrigin f.origin &&
  match f.body with
  | .mark _ => true
  | .event e => decide (e.repeatIndex.toNat ≤ 2)
  | .roll r => decide (1 ≤ r.syncState.toNat) && decide (r.syncState.toNat ≤ 4) &&
      decide (r.rosterSize.toNat ≤ 32) && decide (r.occupancy.toNat ≤ 32)

/-- R27: the class code, positions 1 and 2. -/
def classBits : FrameBody → List LineBit
  | .mark _ => [false, false]
  | .event _ => [false, true]
  | .roll _ => [true, false]

/-- R27: the body in the order of the layout table. -/
def bodyBits : FrameBody → List LineBit
  | .mark m => bitsOf m.boundary ++ bitsOf m.age
  | .event e =>
    [e.timed, e.value.isSome, e.restart] ++ bitsOf e.repeatIndex ++ bitsOf e.sequence ++ bitsOf e.tag ++
      bitsOf e.occurrence ++ (e.value.map bitsOf).getD []
  | .roll r => bitsOf r.syncState ++ bitsOf r.rosterSize ++ bitsOf r.occupancy

/-- R27: head and body, the bits that the check is taken over. -/
def contentBits (f : Frame) : List LineBit := classBits f.body ++ bitsOf f.origin ++ bodyBits f.body

/-- R30: one step of the CRC-8 with polynomial x^8 + x^2 + x + 1. -/
def checkStep (r : Byte) (b : LineBit) : Byte :=
  if xor b r.msb then (r <<< 1) ^^^ 0x07#8 else r <<< 1

/-- R30: the check register after these bits, from the initial value 0. -/
def checkOf (bits : List LineBit) : Byte := bits.foldl checkStep 0

/-- R27: the frame's bits from position 1 to its last check bit, without fill bits. -/
def frameBits (f : Frame) : List LineBit := contentBits f ++ bitsOf (checkOf (contentBits f))

/-- R29: the bits as sent, a dominant fill bit after every seven consecutive recessive bits that another
frame bit follows; `run` is the length of the recessive run so far. -/
def withFill (run : Nat) : List LineBit → List LineBit
  | [] => []
  | b :: bs =>
    let run' := if b then run + 1 else 0
    if run' = Config.fillRun ∧ bs ≠ [] then b :: false :: withFill 0 bs else b :: withFill run' bs

/-- The frame as the station drives it: start bit, head, body and check, with fill bits (R27, R29). -/
def lineBits (f : Frame) : List LineBit := false :: withFill 0 (frameBits f)

/-- What the receiver makes of the levels it read (R28, R39, R40). -/
inductive Received where
  /-- the frame has not ended within these bits -/
  | unfinished
  /-- class code 11, a recessive fill bit, or a field that breaks R40 -/
  | malformed
  /-- the check failed -/
  | checkError
  /-- a well-formed frame with a good check -/
  | good (f : Frame)
  deriving DecidableEq, Repr

/-- R28: how many frame bits follow the start bit, once the bits that decide it have been taken. -/
def frameLength (taken : List LineBit) : Option Nat :=
  match taken with
  | false :: false :: _ => some 64
  | true :: false :: _ => some 31
  | false :: true :: rest => (rest[7]?).map fun hasValue => if hasValue then 87 else 71
  | _ => none

/-- The field of `w` bits that begins at frame position `position`, the start bit being position 0 (R27). -/
def fieldAt (taken : List LineBit) (position w : Nat) : BitVec w :=
  BitVec.ofNat w (natOfBits ((taken.drop (position - 1)).take w))

/-- The bit at frame position `position`, the start bit being position 0 (R27). -/
def bitAt (taken : List LineBit) (position : Nat) : Bool := (taken[position - 1]?).getD false

/-- R27: the fields of a frame from its bits. -/
def frameOfBits (taken : List LineBit) : Frame :=
  let body : FrameBody :=
    if bitAt taken 1 then
      .roll { syncState := fieldAt taken 9 3, rosterSize := fieldAt taken 12 6, occupancy := fieldAt taken 18 6 }
    else if bitAt taken 2 then
      .event { timed := bitAt taken 9, restart := bitAt taken 11, repeatIndex := fieldAt taken 12 2,
               sequence := fieldAt taken 14 8, tag := fieldAt taken 22 10, occurrence := fieldAt taken 32 32,
               value := if bitAt taken 10 then some (fieldAt taken 64 16) else none }
    else .mark { boundary := fieldAt taken 9 32, age := fieldAt taken 41 16 }
  { origin := fieldAt taken 3 6, body := body }

/-- R30, R39, R40: the check is good when head, body and check together leave the register at 0; the fields are
judged only then. -/
def judgeFrame (taken : List LineBit) : Received :=
  if checkOf taken = 0 then
    if frameWellFormed (frameOfBits taken) then .good (frameOfBits taken) else .malformed
  else .checkError

/-- R28, R29, R38: the receiver takes frame bits, removes fill bits and stops at the frame's end or at the bit
at which it abandons the frame. `taken` holds the frame bits so far and `run` the recessive run. -/
def receiveFrom (taken : List LineBit) (run : Nat) : List LineBit → Received
  | [] => .unfinished
  | b :: bs =>
    if run = Config.fillRun then
      if b then .malformed else receiveFrom taken 0 bs
    else
      let taken' := taken ++ [b]
      if taken' = [true, true] then .malformed
      else if frameLength taken' = some taken'.length then judgeFrame taken'
      else receiveFrom taken' (if b then run + 1 else 0) bs

/-- The receiver over the levels read after a start bit. -/
def receive (bits : List LineBit) : Received := receiveFrom [] 0 bits

/-- R32: at position `p` of the head the frame drives recessive, so that a dominant level there loses arbitration. -/
def canLoseAt (f : Frame) (p : Nat) : Bool :=
  decide (1 ≤ p) && decide (p ≤ Config.headLast) && (lineBits f)[p]? == some true

/-- R32, R33: a mismatch at this bit is a bit fault: in the head one of a dominant bit, in the body any. -/
def canFaultAt (f : Frame) (won : Bool) (i : Nat) : Bool :=
  if won then decide (Config.headLast < i) && decide (i < (lineBits f).length)
  else decide (i ≤ Config.headLast) && (lineBits f)[i]? == some false

end Sys2Proof.Machine
end

