-- ==== Sys2Proof/Machine/State.lean ====
section
/-! DEFINITION. The state of one UJ-840, block by block, as plain data, and its start-up values.
-/

namespace Sys2Proof.Machine

/-- Nothing stops the part: the spec gives it no exception, trap or halt, and every command has an effect in
every state. There is no fault to raise. -/
inductive Fault
  deriving DecidableEq, Repr

/-- Why a command has no meaning. -/
inductive Refusal where
  /-- Raised by `exec` for a row of the table that has no meaning yet; no row is refused. Safe. -/
  | notModelled (mnemonic : String)
  deriving DecidableEq, Repr

/-- The five station states (R6). -/
inductive StationState where
  | detached | listening | synced | holdover | discord
  deriving DecidableEq, Repr

/-- The transmitter states (chapter 2.5). -/
inductive TxState where
  | off | ready | head | body | draining
  deriving DecidableEq, Repr

/-- The receiver states (chapter 2.7). -/
inductive RxState where
  | seeking | waiting | taking
  deriving DecidableEq, Repr

/-- The channel modes (R94): `unused` is NONE and `repeating` is REPEAT. -/
inductive Mode where
  | unused | oneShot | delayed | repeating | paired | captureFree | captureClear | qualify
  deriving DecidableEq, Repr

/-- The channel states (R96). -/
inductive ChannelState where
  | disabled | idle | starting | active | lead | running | phaseA | phaseB | counting | watching
  | qualifying | held
  deriving DecidableEq, Repr

/-- The six actions (R60). -/
inductive Action where
  | arm | halt | correct | loadA | loadB | snap
  deriving DecidableEq, Repr

/-- The origin filters of a trigger entry (R62). -/
inductive OriginFilter where
  | any | self | remote | station (id : StationId)
  deriving DecidableEq, Repr

/-- The operand sources of a trigger entry (R63); `noOperand` is NONE. -/
inductive OperandSource where
  | noOperand | frame | fixed
  deriving DecidableEq, Repr

/-- The 27 record kinds (R172), in the order of their codes. -/
inductive RecordKind where
  | chStart | chEnd | capture | qualified | snap | matched | late | expired | displaced | refused
  | actionRefused | clamped | noValue | flushed | synced | holdoverEnter | holdoverLimit | discordEnter
  | resync | peerJoined | peerLost | rosterFull | idClash | publishDropped | lineMute | lineUnmute | lost
  deriving DecidableEq, Repr

/-- A record (R172): kind, time, and the five optional fields. The value is 32 bits, two's complement. -/
structure Record where
  kind : RecordKind
  time : Time
  channel : Option ChannelId := none
  origin : Option StationId := none
  tag : Option Tag := none
  sequence : Option Byte := none
  value : Option (BitVec 32) := none
  deriving DecidableEq, Repr

/-- The Fabric Time Unit (R6). The own MARK request is held in `Pub.markSlot` (R22, R156). -/
structure Ftu where
  time : Time
  station : StationState
  stall : Half
  marker : Option Time
  holdoverCount : Byte
  discordCount : Byte
  listenEnd : Time
  deriving DecidableEq, Repr

/-- The working parameters, copies of the image's station section taken at COMMIT (R6, R164). -/
structure Params where
  id : StationId
  k : Byte
  window : Half
  latency : Byte
  lateLimit : Half
  holdoverLimit : Byte
  rollInterval : Byte
  ageLimit : Byte
  copies : Byte
  deriving DecidableEq, Repr

/-- The kind of item an attempt sends (R31). -/
inductive TxItem where
  | mark | event | roll
  deriving DecidableEq, Repr

/-- The frame on the line (R31): the item, the contents held until the attempt ends, whether the head has been
won (R32), and whether the item is still pending (R33, R34). -/
structure Attempt where
  item : TxItem
  frame : Frame
  won : Bool
  pending : Bool
  deriving DecidableEq, Repr

/-- What the transmitter arbiter offers (R157): the MARK request for a boundary, the head of the publish queue or
the ROLL request. -/
inductive Offer where
  | mark (boundary : Time) | event | roll
  deriving DecidableEq, Repr

/-- The Line Interface Unit (chapter 2). `recessive` is the receiver's count of consecutive recessive bit times (R38), which
stands at 10 once it has reached 10; the bit times of Sys2Proof/Machine/BitTimes.lean advance it (log entry 9). -/
structure Liu where
  tx : TxState
  rx : RxState
  attempt : Option Attempt
  offer : Option Offer
  muted : Bool
  muteLeft : Byte
  recessive : Nat
  deriving DecidableEq, Repr

/-- The ten status counters in the order of R174. -/
structure Counters where
  framesReceived : Half
  checkErrors : Half
  malformed : Half
  bitFaults : Half
  duplicates : Half
  stale : Half
  unlisted : Half
  ownId : Half
  untimed : Half
  stepped : Half
  deriving DecidableEq, Repr

/-- What a peer's latest ROLL reported; the three fields are present or absent together (R52, R175). -/
structure Reported where
  state : StationState
  rosterSize : BitVec 6
  occupancy : BitVec 6
  deriving DecidableEq, Repr

/-- A roster entry (R44). -/
structure RosterEntry where
  origin : StationId
  joinedEpoch : Time
  lastHeard : Time
  lastSequence : Option Byte
  reported : Option Reported
  deriving DecidableEq, Repr

/-- A trigger entry of the working table (R60). -/
structure TrigEntry where
  valid : Bool
  note : Bool
  tag : Tag
  filter : OriginFilter
  channel : ChannelId
  action : Action
  offset : BitVec 24
  source : OperandSource
  fixed : Half
  deriving DecidableEq, Repr

/-- The cause of an action (R68): the notice's origin, tag and sequence, and the matching entry's index. -/
structure Cause where
  origin : StationId
  tag : Tag
  sequence : Option Byte
  entry : Byte
  deriving DecidableEq, Repr

/-- A derived action (R68, R73). The operand's 16 bits are two's complement for CORRECT, unsigned for a load. -/
structure PendingAction where
  due : Time
  channel : ChannelId
  action : Action
  operand : Option Half
  cause : Cause
  deriving DecidableEq, Repr

/-- A notice: an event as presented to the trigger table (R58, R150). -/
structure Notice where
  origin : StationId
  sequence : Option Byte
  tag : Tag
  value : Option Half
  reference : Time
  deriving DecidableEq, Repr

/-- A channel's working configuration in the fields of its image record (R94, R165). Fields that the mode does not
read keep whatever the image held. -/
structure ChannelConfig where
  mode : Mode
  rateTap : Byte
  initialA : Half
  initialB : Half
  idleLevel : Byte
  edge : Byte
  activeLevel : Byte
  flags : Byte
  startTag : Half
  endTag : Half
  inputTag : Half
  deriving DecidableEq, Repr

/-- A channel engine: its configuration (R94), its state items (R96), the level last sampled on its pin (R111,
R114), and two items of the model's own: the tap instant of the present tick is still to be taken (R99), and
the sample of the present local tick may still show a change (R111). -/
structure Channel where
  cfg : ChannelConfig
  state : ChannelState
  counter : Half
  workA : Half
  workB : Half
  stagedA : Option Half
  stagedB : Option Half
  pairReady : Bool
  held : Option Int
  measureValue : Half
  measureTime : Time
  wrap : Byte
  runStart : Time
  output : Bool
  sampled : Option Bool
  tapDue : Bool
  sampleOpen : Bool
  deriving DecidableEq, Repr

/-- An entry of the publish queue (R152). -/
structure QueueEntry where
  tag : Tag
  occurrence : Time
  value : Option Half
  timed : Bool
  sequence : Option Byte
  restart : Bool
  copiesSent : Nat
  faults : Nat
  deriving DecidableEq, Repr

/-- The own MARK request (R156). -/
structure MarkRequest where
  boundary : Time
  faults : Nat
  deriving DecidableEq, Repr

/-- The ROLL request (R156). -/
structure RollRequest where
  faults : Nat
  deriving DecidableEq, Repr

/-- Publishing (chapter 9). -/
structure Pub where
  queue : List QueueEntry
  markSlot : Option MarkRequest
  rollSlot : Option RollRequest
  ownSequence : Byte
  restartPending : Bool
  deriving DecidableEq, Repr

/-- The record queue, oldest first, and the lost count (R170). -/
structure RecordLog where
  records : List Record
  lost : Half
  deriving DecidableEq, Repr

/-- The station port: the response of the last request, status byte first (R161), whether it is a READ_RECORD
response whose record the rise of CS removes (R171), and whether RESET is low (R176). -/
structure Port where
  response : List Byte
  readOut : Bool
  resetLow : Bool
  deriving DecidableEq, Repr

/-- An occurrence on its way from its channel to Publishing: the channel, the tag, the occurrence time and the value, if
any (R112, R150). -/
structure Occurrence where
  channel : ChannelId
  tag : Tag
  time : Time
  value : Option Half
  deriving DecidableEq, Repr

/-- The model's own: what the present instant has reached and its blocks have not yet taken (R4, R84), and what channels
take before each of the actions that it releases (R134; log entry 33). -/
structure Due where
  ftuBoundary : Bool
  liuBoundary : Bool
  midEpoch : Bool
  releasing : List PendingAction
  moments : List (List ChannelMoment)
  deriving DecidableEq, Repr

/-- One station. `pending` is the queue of commands that wait, first in first out. -/
structure State where
  ftu : Ftu
  params : Params
  liu : Liu
  counters : Counters
  roster : List RosterEntry
  table : List TrigEntry
  schedule : List PendingAction
  channels : Vector Channel 8
  pins : BitVec 8
  pub : Pub
  image : List Host.Cell
  log : RecordLog
  port : Port
  due : Due
  pending : List Instr
  deriving DecidableEq, Repr

/-- R6: the FTU after a start-up reset. -/
def Ftu.reset : Ftu :=
  { time := 0, station := .detached, stall := 0, marker := none, holdoverCount := 0, discordCount := 0,
    listenEnd := 0 }

/-- R6 and R160 give k = 10, W = 1, mark latency 0, H = 1 and one copy. DESIGN CHOICE (log entry 14), unsafe: the
station id, late limit, roll interval and age limit have no start-up value in the spec and are 0 here. -/
def Params.reset : Params :=
  { id := 0, k := 10, window := 1, latency := 0, lateLimit := 0, holdoverLimit := 1, rollInterval := 0,
    ageLimit := 0, copies := 1 }

/-- R43: the LIU after a start-up reset. DESIGN CHOICE (log entry 9): the count of R38 has no start-up value and is 0. -/
def Liu.reset : Liu :=
  { tx := .off, rx := .seeking, attempt := none, offer := none, muted := false, muteLeft := 0, recessive := 0 }

/-- R174: all ten counters are 0. -/
def Counters.zero : Counters :=
  { framesReceived := 0, checkErrors := 0, malformed := 0, bitFaults := 0, duplicates := 0, stale := 0,
    unlisted := 0, ownId := 0, untimed := 0, stepped := 0 }

/-- R61: an entry with valid = no and every other field 0. DESIGN CHOICE (log entry 19): no action has the code 0 (R166),
and the action field holds ARM, which nothing can see in an entry with valid = no. -/
def TrigEntry.cleared : TrigEntry :=
  { valid := false, note := false, tag := 0, filter := .any, channel := 0, action := .arm, offset := 0,
    source := .noOperand, fixed := 0 }

/-- R95 and R175: mode NONE, every other field 0, every tag absent (0xFFFF). -/
def ChannelConfig.reset : ChannelConfig :=
  { mode := .unused, rateTap := 0, initialA := 0, initialB := 0, idleLevel := 0, edge := 0, activeLevel := 0,
    flags := 0, startTag := 0xFFFF, endTag := 0xFFFF, inputTag := 0xFFFF }

/-- R98: the channel items after a start-up reset. -/
def Channel.reset : Channel :=
  { cfg := .reset, state := .disabled, counter := 0, workA := 0, workB := 0, stagedA := none, stagedB := none,
    pairReady := false, held := none, measureValue := 0, measureTime := 0, wrap := 0, runStart := 0,
    output := false, sampled := none, tapDue := false, sampleOpen := false }

/-- R160: Publishing after a start-up reset. -/
def Pub.reset : Pub :=
  { queue := [], markSlot := none, rollSlot := none, ownSequence := 0, restartPending := false }

/-- Nothing is due. -/
def Due.none : Due :=
  { ftuBoundary := false, liuBoundary := false, midEpoch := false, releasing := [], moments := [] }

/-- The part as a start-up reset leaves it, RESET high again (R176); no command waits.
DESIGN CHOICE (log entry 15), unsafe: the outside drives every pin low. -/
def State.reset : State :=
  { ftu := .reset, params := .reset, liu := .reset, counters := .zero, roster := [],
    table := List.replicate 64 .cleared, schedule := [], channels := Vector.replicate 8 .reset, pins := 0,
    pub := .reset, image := [], log := { records := [], lost := 0 },
    port := { response := [], readOut := false, resetLow := false }, due := .none, pending := [] }

end Sys2Proof.Machine
end

