-- ==== Sys2Proof/Machine/Ops.lean ====
section
/-! DEFINITION. The named operations every block is built from: the image memory, comparisons of fabric times,
epochs, the record queue, channels, counters, and answers of the station port.
-/

namespace Sys2Proof.Machine

/-! ### The image memory (R163) -/

/-- One byte of the image; a byte that no cell lists is 0. -/
def readCell (m : List Host.Cell) (a : Nat) : Byte :=
  match m with
  | [] => Config.imageDefault
  | (b, v) :: rest => if b = a then v else readCell rest a

/-- One byte written: the cells stay in rising order and no cell holds the default. -/
def writeCell (m : List Host.Cell) (a : Nat) (v : Byte) : List Host.Cell :=
  match m with
  | [] => if v = Config.imageDefault then [] else [(a, v)]
  | (b, w) :: rest =>
    if a < b then (if v = Config.imageDefault then (b, w) :: rest else (a, v) :: (b, w) :: rest)
    else if a = b then (if v = Config.imageDefault then rest else (a, v) :: rest)
    else (b, w) :: writeCell rest a v

/-- Bytes written at consecutive offsets (R163). -/
def writeCells (m : List Host.Cell) (a : Nat) : List Byte → List Host.Cell
  | [] => m
  | v :: vs => writeCells (writeCell m a v) (a + 1) vs

/-- Bytes read at consecutive offsets (R163). -/
def readCells (m : List Host.Cell) (a n : Nat) : List Byte := (List.range n).map fun i => readCell m (a + i)

/-- The canonical form: addresses strictly rising, above `low`, inside the image, and no cell at the default. -/
def cellsWf (low : Nat) : List Host.Cell → Bool
  | [] => true
  | (a, v) :: rest =>
    decide (low ≤ a) && decide (a < Config.imageBytes) && decide (v ≠ Config.imageDefault) && cellsWf (a + 1) rest

/-- The image memory is in its canonical form. -/
def memoryWf (m : List Host.Cell) : Bool := cellsWf 0 m

/-- A two-byte image field, most significant byte first (R161). -/
def readHalf (m : List Host.Cell) (a : Nat) : Half := half (readCell m a) (readCell m (a + 1))

/-! ### Fabric times (R2) and epochs (R3) -/

/-- R2: the signed difference of X from T, from -2^31 to 2^31 - 1. -/
def signedDifference (x t : Time) : Int := (x - t).toInt

/-- R3: the epoch length L = 2^k. -/
def epochLength (k : Byte) : Time := 1#32 <<< k.toNat

/-- R3: the epoch number of a time. -/
def epochOf (k : Byte) (x : Time) : Time := x >>> k.toNat

/-- The ticks since the last boundary. -/
def intoEpoch (k : Byte) (x : Time) : Time := x &&& (epochLength k - 1)

/-- R3: a boundary is a fabric time that is a multiple of L. -/
def isBoundary (k : Byte) (x : Time) : Bool := intoEpoch k x == 0

/-- R3: a mid-epoch instant is a boundary plus L/2. -/
def isMidEpoch (k : Byte) (x : Time) : Bool := intoEpoch k x == epochLength k >>> 1

/-- R48: the distance (e - last-heard epoch) mod 2^(32-k) between two epoch numbers. -/
def epochDistance (k : Byte) (e last : Time) : Time := (e - last) &&& ((1#32 <<< (32 - k.toNat)) - 1)

/-- Joined: any station state but DETACHED. -/
def joined (s : State) : Bool := s.ftu.station != .detached

/-- The station is locked on: SYNCED or HOLDOVER (R57, R152). -/
def lockedOn (s : State) : Bool := s.ftu.station == .synced || s.ftu.station == .holdover

/-! ### The record queue (R170) -/

/-- R170: a record joins the tail, or the lost count is increased when 64 are held. -/
def writeRecord (r : Record) (s : State) : State :=
  if s.log.records.length < Config.recordCapacity then
    { s with log := { s.log with records := s.log.records ++ [r] } }
  else { s with log := { s.log with lost := satInc s.log.lost } }

/-- A record of this kind, stamped with the present T, with no optional field (R170). -/
def recordNow (kind : RecordKind) (s : State) : Record := { kind := kind, time := s.ftu.time }

/-- A record about an action or a notice: channel, origin, tag and sequence when present, and a value. -/
def causeRecord (kind : RecordKind) (c : ChannelId) (origin : StationId) (tag : Tag) (sequence : Option Byte)
    (value : BitVec 32) (s : State) : Record :=
  { kind := kind, time := s.ftu.time, channel := some c, origin := some origin, tag := some tag,
    sequence := sequence, value := some value }

/-! ### Channels, counters, answers -/

/-- Channel c's engine. -/
def channelOf (s : State) (c : ChannelId) : Channel := s.channels.get c

/-- Channel c's engine replaced; the other channels hold separate state (R99). -/
def setChannel (c : ChannelId) (ch : Channel) (s : State) : State :=
  { s with channels := s.channels.set c.val ch }

/-- A status counter changed (R174). -/
def count (f : Counters → Counters) (s : State) : State := { s with counters := f s.counters }

/-- R162: a response, status byte first. It ends whatever READ_RECORD response came before (R171). -/
def answer (response : List Byte) (s : State) : State :=
  { s with port := { s.port with response := response, readOut := false } }

/-- The eight channels in order. -/
def allChannels : List ChannelId := [0, 1, 2, 3, 4, 5, 6, 7]

end Sys2Proof.Machine
end

