-- ==== Sys2Proof/Machine/Flags.lean ====
section
/-! DEFINITION. Every flag and presence bit the spec computes: record presence (R172), snapshot presence and flag
bytes (R175), record flags of a channel (R165), POST flags (R169), ATTN (R173).
-/

namespace Sys2Proof.Machine

/-! ### Codes -/

/-- The record kind codes 1 to 27 (R172). -/
def recordCode : RecordKind → Byte
  | .chStart => 1 | .chEnd => 2 | .capture => 3 | .qualified => 4 | .snap => 5 | .matched => 6 | .late => 7
  | .expired => 8 | .displaced => 9 | .refused => 10 | .actionRefused => 11 | .clamped => 12 | .noValue => 13
  | .flushed => 14 | .synced => 15 | .holdoverEnter => 16 | .holdoverLimit => 17 | .discordEnter => 18
  | .resync => 19 | .peerJoined => 20 | .peerLost => 21 | .rosterFull => 22 | .idClash => 23
  | .publishDropped => 24 | .lineMute => 25 | .lineUnmute => 26 | .lost => 27

/-- The station state codes of READ_STATUS (R174); the last four are also the ROLL frame's (R27). -/
def stationCode : StationState → Byte
  | .detached => 0 | .listening => 1 | .synced => 2 | .holdover => 3 | .discord => 4

/-- The channel state codes of READ_CHANNEL (R175). -/
def channelStateCode : ChannelState → Byte
  | .disabled => 0 | .idle => 1 | .starting => 2 | .active => 3 | .lead => 4 | .running => 5 | .phaseA => 6
  | .phaseB => 7 | .counting => 8 | .watching => 9 | .qualifying => 10 | .held => 11

/-- The mode codes of R165. -/
def modeCode : Mode → Byte
  | .unused => 0 | .oneShot => 1 | .delayed => 2 | .repeating => 3 | .paired => 4 | .captureFree => 5
  | .captureClear => 6 | .qualify => 7

/-- The action codes of R104 and R166. -/
def actionCode : Action → Byte
  | .arm => 1 | .halt => 2 | .correct => 3 | .loadA => 4 | .loadB => 5 | .snap => 6

/-! ### Record flags of a channel (R165): start 0x01, end 0x02, input 0x04, snap 0x08 -/

/-- The channel writes CH_START records. -/
def flagStart (cfg : ChannelConfig) : Bool := cfg.flags.getLsbD 0
/-- The channel writes CH_END records. -/
def flagEnd (cfg : ChannelConfig) : Bool := cfg.flags.getLsbD 1
/-- The channel writes CAPTURE or QUALIFIED records. -/
def flagInput (cfg : ChannelConfig) : Bool := cfg.flags.getLsbD 2
/-- The channel writes SNAP records. -/
def flagSnap (cfg : ChannelConfig) : Bool := cfg.flags.getLsbD 3

/-! ### POST flags (R169) -/

/-- 0x01: the value is present. -/
def postHasValue (flags : Byte) : Bool := flags.getLsbD 0
/-- 0x02: the event is to be published. -/
def postPublishes (flags : Byte) : Bool := flags.getLsbD 1

/-! ### Presence and flag bytes -/

/-- R172: channel 0x01, origin 0x02, tag 0x04, sequence 0x08, value 0x10. -/
def recordPresence (r : Record) : Byte :=
  flagByte 0x01 r.channel.isSome ||| flagByte 0x02 r.origin.isSome ||| flagByte 0x04 r.tag.isSome |||
    flagByte 0x08 r.sequence.isSome ||| flagByte 0x10 r.value.isSome

/-- R175: last sequence 0x01, reported fields 0x02. -/
def rosterPresence (e : RosterEntry) : Byte :=
  flagByte 0x01 e.lastSequence.isSome ||| flagByte 0x02 e.reported.isSome

/-- R175: operand 0x01, sequence 0x02. -/
def actionPresence (a : PendingAction) : Byte :=
  flagByte 0x01 a.operand.isSome ||| flagByte 0x02 a.cause.sequence.isSome

/-- R175: staged A 0x01, staged B 0x02, held correction 0x04, pair ready 0x08, output active 0x10, pin sampled
high 0x20, pin sampled 0x40. -/
def channelFlags (ch : Channel) : Byte :=
  flagByte 0x01 ch.stagedA.isSome ||| flagByte 0x02 ch.stagedB.isSome ||| flagByte 0x04 ch.held.isSome |||
    flagByte 0x08 ch.pairReady ||| flagByte 0x10 ch.output ||| flagByte 0x20 (ch.sampled == some true) |||
    flagByte 0x40 ch.sampled.isSome

/-- R173: ATTN is driven low while the record queue holds one or more records. -/
def attnLow (s : State) : Bool := !s.log.records.isEmpty

end Sys2Proof.Machine
end

