-- ==== Sys2Proof/Machine/Operands.lean ====
section
/-! DEFINITION. Every operand form: the fields of the image (R164 to R166), the checks of COMMIT (R64, R65, R167), the
settings of a channel, and the operand of a derived action (R63).
-/

namespace Sys2Proof.Machine

/-! ### Channel settings (R94, R165) -/

/-- R165: the mode a mode byte names; COMMIT refuses a byte above 7. -/
def modeOf (code : Byte) : Mode :=
  if code = 1 then .oneShot else if code = 2 then .delayed else if code = 3 then .repeating
  else if code = 4 then .paired else if code = 5 then .captureFree else if code = 6 then .captureClear
  else if code = 7 then .qualify else .unused

/-- ONE_SHOT, DELAYED, REPEAT and PAIRED drive their pin (R110). -/
def isOutputMode : Mode → Bool
  | .oneShot | .delayed | .repeating | .paired => true
  | .unused | .captureFree | .captureClear | .qualify => false

/-- CAPTURE_FREE and CAPTURE_CLEAR (R135). -/
def isCaptureMode : Mode → Bool
  | .captureFree | .captureClear => true
  | .unused | .oneShot | .delayed | .repeating | .paired | .qualify => false

/-- CAPTURE_FREE, CAPTURE_CLEAR and QUALIFY read their pin (R110). -/
def isInputMode : Mode → Bool
  | .captureFree | .captureClear | .qualify => true
  | .unused | .oneShot | .delayed | .repeating | .paired => false

/-- R165: the ticks of a rate tap: 1, 4, 16 or 64. -/
def tapTicks (code : Byte) : Time := 1#32 <<< (2 * code.toNat)

/-- R5: a fabric tick that moves T to a multiple of the tap is a tap instant. -/
def isTapInstant (code : Byte) (t : Time) : Bool := t &&& (tapTicks code - 1) == 0

/-- R165: a tag field is 0 to 1023, or absent. -/
def tagOf (field : Half) : Option Tag := if field.toNat < 1024 then some (field.setWidth 10) else none

/-- R136: an edge setting of 0 takes rising changes, 1 falling changes, 2 both. -/
def edgeMatches (setting : Byte) (rising : Bool) : Bool :=
  if setting = 0 then rising else if setting = 1 then !rising else true

/-- R143: a sampled level equals the channel's active level setting. -/
def isActiveLevel (cfg : ChannelConfig) (level : Bool) : Bool := level == (cfg.activeLevel != 0)

/-- Channel record c of the image (R165). -/
def channelConfigAt (m : List Host.Cell) (c : Nat) : ChannelConfig :=
  let o := 16 + 16 * c
  { mode := modeOf (readCell m o), rateTap := readCell m (o + 1), initialA := readHalf m (o + 2),
    initialB := readHalf m (o + 4), idleLevel := readCell m (o + 6), edge := readCell m (o + 7),
    activeLevel := readCell m (o + 8), flags := readCell m (o + 9), startTag := readHalf m (o + 10),
    endTag := readHalf m (o + 12), inputTag := readHalf m (o + 14) }

/-- R165: a tag setting in its encoding: 0 to 1023, or 0xFFFF. -/
def tagFieldOk (field : Half) : Bool := decide (field.toNat < 1024) || field == 0xFFFF

/-- R94, R165: channel record c passes: mode NONE, or every setting the mode reads in its encoding. -/
def channelRecordOk (m : List Host.Cell) (c : Nat) : Bool :=
  let o := 16 + 16 * c
  let code := readCell m o
  let cfg := channelConfigAt m c
  code == 0 ||
    (decide (code.toNat ≤ 7) && decide (cfg.rateTap.toNat ≤ 3) && decide (cfg.flags.toNat ≤ 15) &&
      tagFieldOk cfg.startTag &&
      (!isOutputMode cfg.mode || (decide (cfg.idleLevel.toNat ≤ 1) && tagFieldOk cfg.endTag)) &&
      (!isCaptureMode cfg.mode || decide (cfg.edge.toNat ≤ 2)) &&
      (cfg.mode != .qualify || decide (cfg.activeLevel.toNat ≤ 1)) &&
      (!isInputMode cfg.mode || tagFieldOk cfg.inputTag))

/-! ### Trigger entries (R60, R64, R65, R166) -/

/-- R65: the actions a channel mode allows. -/
def actionAllowed : Mode → Action → Bool
  | .unused, _ => false
  | _, .arm | _, .halt | _, .snap => true
  | .oneShot, .correct | .delayed, .correct => true
  | .repeating, .correct | .paired, .correct | .captureFree, .correct | .captureClear, .correct
  | .qualify, .correct => false
  | .oneShot, .loadA | .delayed, .loadA | .repeating, .loadA | .paired, .loadA | .qualify, .loadA => true
  | .captureFree, .loadA | .captureClear, .loadA => false
  | .delayed, .loadB | .paired, .loadB => true
  | .oneShot, .loadB | .repeating, .loadB | .captureFree, .loadB | .captureClear, .loadB | .qualify, .loadB => false

/-- R166: the action a code names. -/
def actionOf (code : Byte) : Option Action :=
  if code = 1 then some .arm else if code = 2 then some .halt else if code = 3 then some .correct
  else if code = 4 then some .loadA else if code = 5 then some .loadB else if code = 6 then some .snap else none

/-- R166: the origin filter a code names. -/
def filterOf (code : Byte) : Option OriginFilter :=
  if code = 0 then some .any else if code = 64 then some .self else if code = 65 then some .remote
  else if code.toNat ≤ 62 then some (.station (code.setWidth 6)) else none

/-- R166: the operand source a code names. -/
def sourceOf (code : Byte) : Option OperandSource :=
  if code = 0 then some .noOperand else if code = 1 then some .frame else if code = 2 then some .fixed else none

/-- R64 condition 6: NONE goes with ARM, HALT and SNAP; FRAME or FIXED with CORRECT, LOAD_A and LOAD_B. -/
def sourceSuits : Action → OperandSource → Bool
  | .arm, .noOperand | .halt, .noOperand | .snap, .noOperand => true
  | .arm, .frame | .arm, .fixed | .halt, .frame | .halt, .fixed | .snap, .frame | .snap, .fixed => false
  | .correct, .noOperand | .loadA, .noOperand | .loadB, .noOperand => false
  | .correct, .frame | .correct, .fixed | .loadA, .frame | .loadA, .fixed | .loadB, .frame | .loadB, .fixed => true

/-- Trigger entry i of the image (R166). DESIGN CHOICE (log entry 19): in an entry with valid = no, a filter, action or
operand source byte outside its encoding is held as the encoding's first value, a tag above 1023 as its low ten bits and
a channel above 7 modulo 8. Nothing can see these (R60, R61). -/
def trigEntryAt (m : List Host.Cell) (i : Nat) : TrigEntry :=
  let o := 144 + 12 * i
  let first := readCell m o
  { valid := first.getLsbD 0, note := first.getLsbD 1, tag := (readHalf m (o + 1)).setWidth 10,
    filter := (filterOf (readCell m (o + 3))).getD .any, channel := Fin.ofNat 8 (readCell m (o + 4)).toNat,
    action := (actionOf (readCell m (o + 5))).getD .arm,
    offset := readCell m (o + 6) ++ readCell m (o + 7) ++ readCell m (o + 8),
    source := (sourceOf (readCell m (o + 9))).getD .noOperand, fixed := readHalf m (o + 10) }

/-- R64: trigger entry i passes. The 24-bit offset always lies in its range (R166). -/
def trigEntryOk (m : List Host.Cell) (stationId : Byte) (i : Nat) : Bool :=
  let o := 144 + 12 * i
  let channel := readCell m (o + 4)
  let mode := modeOf (readCell m (16 + 16 * channel.toNat))
  !(readCell m o).getLsbD 0 ||
    (decide ((readHalf m (o + 1)).toNat ≤ 1023) &&
      (filterOf (readCell m (o + 3))).isSome && readCell m (o + 3) != stationId &&
      decide (channel.toNat ≤ 7) && mode != .unused &&
      (match actionOf (readCell m (o + 5)), sourceOf (readCell m (o + 9)) with
        | some a, some src => actionAllowed mode a && sourceSuits a src
        | _, _ => false))

/-- The working trigger table of an image (R61). -/
def trigTableOf (m : List Host.Cell) : List TrigEntry := (List.range Config.triggerEntries).map (trigEntryAt m)

/-! ### The station section (R164) and validation (R167) -/

/-- The station section's fields (R164). -/
def paramsOf (m : List Host.Cell) : Params :=
  { id := (readCell m 0).setWidth 6, k := readCell m 1, window := readHalf m 2, latency := readCell m 4,
    lateLimit := readHalf m 5, holdoverLimit := readCell m 7, rollInterval := readCell m 8,
    ageLimit := readCell m 9, copies := readCell m 10 }

/-- The first of the indexes below n that fails. -/
def firstFailing (ok : Nat → Bool) (n : Nat) : Option Nat := (List.range n).find? fun i => !ok i

/-- R167: the reason and item index of the first check that fails, in the order of the reasons. -/
def validate (m : List Host.Cell) : Option (Byte × Byte) :=
  let id := readCell m 0
  let k := readCell m 1
  let w := readHalf m 2
  let interval := readCell m 8
  let age := readCell m 9
  if ¬ (1 ≤ id.toNat ∧ id.toNat ≤ 62) then some (1, 0)
  else if ¬ (10 ≤ k.toNat ∧ k.toNat ≤ 16) then some (2, 1)
  else if ¬ (1 ≤ w.toNat ∧ w.toNat ≤ 1023 ∧ 4 * w.toNat < 2 ^ k.toNat) then some (3, 2)
  else if ¬ (interval.toNat ∈ [4, 8, 16, 32, 64]) then some (4, 8)
  else if ¬ (8 ≤ age.toNat ∧ 2 * interval.toNat ≤ age.toNat) then some (5, 9)
  else if ¬ (1 ≤ (readCell m 10).toNat ∧ (readCell m 10).toNat ≤ 3) then some (6, 10)
  else if readCell m 7 = 0 then some (7, 7)
  else match firstFailing (channelRecordOk m) 8 with
    | some c => some (8, BitVec.ofNat 8 c)
    | none =>
      match firstFailing (trigEntryOk m id) Config.triggerEntries with
      | some i => some (9, BitVec.ofNat 8 i)
      | none => none

/-! ### Operands of actions (R63) -/

/-- R63: the operand of the action a matching entry derives: `none` when the source is FRAME and the notice has no
value; `some none` for an action without an operand. -/
def operandOf (e : TrigEntry) (value : Option Half) : Option (Option Half) :=
  match e.source with
  | .noOperand => some none
  | .fixed => some (some e.fixed)
  | .frame => value.map some

/-- R62: an origin filter accepts a notice by its origin alone. -/
def filterAccepts (own : StationId) (filter : OriginFilter) (origin : StationId) : Bool :=
  match filter with
  | .any => true
  | .self => origin == own
  | .remote => origin != own
  | .station n => origin == n

end Sys2Proof.Machine
end

