-- ==== Sys2Proof/Machine/Actions.lean ====
section
/-! DEFINITION. What the six actions do at a channel (R101, R104 to R109, R119, R120, R123, R127, R130, R132, R138,
R146). No action makes an occurrence at the instant it is taken (R83).
-/

namespace Sys2Proof.Machine

/-- "Running": any state but DISABLED, IDLE and STARTING (R97). -/
def isRunning : ChannelState → Bool
  | .disabled | .idle | .starting => false
  | .active | .lead | .running | .phaseA | .phaseB | .counting | .watching | .qualifying | .held => true

/-- R104: ACTION_REFUSED, with the action's code and cause; nothing else changes. -/
def refuseAction (a : PendingAction) (s : State) : State :=
  writeRecord (causeRecord .actionRefused a.channel a.cause.origin a.cause.tag a.cause.sequence
    ((actionCode a.action).setWidth 32) s) s

/-- R101: the channel waits for the first tap instant at a later tick; a tap instant at the very tick of the ARM
does not start it. -/
def armed (ch : Channel) : Channel := { ch with state := .starting, tapDue := false }

/-- R105: the channel halted. The counter, working, measure, wrap and run start items keep their values. -/
def halted (ch : Channel) : Channel :=
  { ch with state := .idle, output := false, stagedA := none, stagedB := none, pairReady := false, held := none }

/-- An exact result brought into `low` to `high` by taking the nearer end. -/
def clampInt (low high v : Int) : Int := max low (min high v)

/-- R102, R107: a counter from an exact sum, clamped to 0 to 65,535. -/
def clampCounter (v : Int) : Half := BitVec.ofInt 16 (clampInt 0 65535 v)

/-- The sum lies outside the counter's range, so that it is clamped with a record (R102, R107). -/
def isClamped (v : Int) : Bool := decide (v < 0) || decide (65535 < v)

/-- ARM (R101, R119): IDLE goes to STARTING, a ONE_SHOT in ACTIVE reloads working A, any other state refuses. -/
def takeArm (a : PendingAction) (s : State) : State :=
  let ch := channelOf s a.channel
  match ch.state with
  | .idle => setChannel a.channel (armed ch) s
  | .active =>
    if ch.cfg.mode = .oneShot then setChannel a.channel { ch with counter := ch.workA } s else refuseAction a s
  | .disabled => s
  | .starting | .lead | .running | .phaseA | .phaseB | .counting | .watching | .qualifying | .held =>
    refuseAction a s

/-- HALT (R105): no record, never refused, no effect in IDLE. -/
def takeHalt (a : PendingAction) (s : State) : State :=
  let ch := channelOf s a.channel
  if ch.state = .idle ∨ ch.state = .disabled then s else setChannel a.channel (halted ch) s

/-- SNAP (R106): the counter and T are measured, with a SNAP record if the channel's snap flag is set. -/
def takeSnap (a : PendingAction) (s : State) : State :=
  let ch := channelOf s a.channel
  let s' := setChannel a.channel { ch with measureValue := ch.counter, measureTime := s.ftu.time } s
  if flagSnap ch.cfg then
    writeRecord (causeRecord .snap a.channel a.cause.origin a.cause.tag a.cause.sequence
      (ch.counter.setWidth 32) s) s'
  else s'

/-- CORRECT on a running counter (R107): the exact sum, clamped with a CLAMPED record that carries the cause. -/
def correctRunning (a : PendingAction) (v : Int) (s : State) : State :=
  let ch := channelOf s a.channel
  let sum := (ch.counter.toNat : Int) + v
  let s' := setChannel a.channel { ch with counter := clampCounter sum } s
  if isClamped sum then
    writeRecord (causeRecord .clamped a.channel a.cause.origin a.cause.tag a.cause.sequence
      (BitVec.ofInt 32 sum) s) s'
  else s'

/-- R108: CORRECT in STARTING adds to the held correction, clamped to -65,535 to 65,535 without a record. -/
def holdCorrection (v : Int) (ch : Channel) : Channel :=
  { ch with held := some (match ch.held with | none => v | some h => clampInt (-65535) 65535 (h + v)) }

/-- CORRECT (R107, R108): by state; IDLE refuses. -/
def takeCorrect (a : PendingAction) (v : Int) (s : State) : State :=
  let ch := channelOf s a.channel
  match ch.state with
  | .idle => refuseAction a s
  | .starting => setChannel a.channel (holdCorrection v ch) s
  | .active | .lead => correctRunning a v s
  | .disabled | .running | .phaseA | .phaseB | .counting | .watching | .qualifying | .held => s

/-- LOAD_A (R109, R130): sets working A, or stages it and readies the pair in a running PAIRED channel. -/
def loadedA (v : Half) (ch : Channel) : Channel :=
  if ch.cfg.mode = .paired ∧ isRunning ch.state = true then { ch with stagedA := some v, pairReady := true }
  else { ch with workA := v }

/-- LOAD_B (R109, R130): sets working B, or stages it in a running PAIRED channel. -/
def loadedB (v : Half) (ch : Channel) : Channel :=
  if ch.cfg.mode = .paired ∧ isRunning ch.state = true then { ch with stagedB := some v } else { ch with workB := v }

/-- R83: the channel named by the action takes it at once, in its present state. COMMIT refuses a trigger entry
whose action the channel's mode does not allow (R64, R65), so such an action reaches no channel; here it
changes nothing. -/
def applyAction (a : PendingAction) (s : State) : State :=
  let ch := channelOf s a.channel
  if actionAllowed ch.cfg.mode a.action then
    match a.action with
    | .arm => takeArm a s
    | .halt => takeHalt a s
    | .snap => takeSnap a s
    | .correct => takeCorrect a (a.operand.getD 0).toInt s
    | .loadA => setChannel a.channel (loadedA (a.operand.getD 0) ch) s
    | .loadB => setChannel a.channel (loadedB (a.operand.getD 0) ch) s
  else s

/-- R112, R116, R131: an action of this kind that was to find the channel as `old` finds the same in `new`: the same state,
output level and staged values, and the same of what else it reads there (R117). An ARM reads working A where it retriggers
(R119), a CORRECT the counter or what is held (R107, R108), and a SNAP the counter (R106). -/
def findsSame (a : Action) (old new : Channel) : Bool :=
  old.state == new.state && old.output == new.output && old.stagedA == new.stagedA && old.stagedB == new.stagedB &&
    old.pairReady == new.pairReady &&
    match a with
    | .arm => old.workA == new.workA || !(old.cfg.mode == .oneShot && old.state == .active)
    | .correct => old.counter == new.counter && old.held == new.held
    | .snap => old.counter == new.counter
    | .halt | .loadA | .loadB => true

/-- Actions applied at one instant reach their channels one at a time, in this order (R83). -/
def applyAll (as : List PendingAction) (s : State) : State := as.foldl (fun s a => applyAction a s) s

end Sys2Proof.Machine
end

