-- ==== Sys2Proof/Machine/Schedule.lean ====
section
/-! DEFINITION. The Action Schedule: lateness and placement (R75 to R82), release (R84, R85), flush (R88). -/

namespace Sys2Proof.Machine

/-- R73: an action's distance (due - T) mod 2^32 from the present T. -/
def distance (t : Time) (a : PendingAction) : Nat := (a.due - t).toNat

/-- R75: the lateness of a due time: positive exactly when it is behind T, and 2^31 at the point opposite. -/
def lateness (due t : Time) : Int := -(signedDifference due t)

/-- R78: the action is placed after every entry whose distance is no greater than its own. -/
def insertAction (t : Time) (a : PendingAction) : List PendingAction → List PendingAction
  | [] => [a]
  | b :: bs => if distance t b ≤ distance t a then b :: insertAction t a bs else a :: b :: bs

/-- R82: a schedule record about an action. -/
def scheduleRecord (kind : RecordKind) (a : PendingAction) (value : BitVec 32) (s : State) : Record :=
  causeRecord kind a.channel a.cause.origin a.cause.tag a.cause.sequence value s

/-- R81: on a full list, an earlier newcomer displaces the last entry; any other newcomer is refused. -/
def displaceOrRefuse (a : PendingAction) (s : State) : State :=
  match s.schedule.getLast? with
  | none => s
  | some last =>
    if distance s.ftu.time a < distance s.ftu.time last then
      writeRecord (scheduleRecord .displaced last last.due s)
        { s with schedule := insertAction s.ftu.time a s.schedule.dropLast }
    else writeRecord (scheduleRecord .refused a a.due s) s

/-- R77: placement of a derived action, decided by its lateness and by the room in the list. -/
def placeAction (a : PendingAction) (s : State) : State :=
  let late := lateness a.due s.ftu.time
  if late < 0 then
    if s.schedule.length < Config.scheduleCapacity then
      { s with schedule := insertAction s.ftu.time a s.schedule }
    else displaceOrRefuse a s
  else if late = 0 then applyAction a s
  else if late ≤ s.params.lateLimit.toNat then
    applyAction a (writeRecord (scheduleRecord .late a (BitVec.ofInt 32 late) s) s)
  else writeRecord (scheduleRecord .expired a (BitVec.ofInt 32 late) s) s

/-- R79, R80: placement applies the action at once. -/
def appliedAtOnce (a : PendingAction) (s : State) : Bool :=
  decide (0 ≤ lateness a.due s.ftu.time) && decide (lateness a.due s.ftu.time ≤ s.params.lateLimit.toNat)

/-- R84: the entries due at the time a tick has reached leave the list; their channels take them at the RELEASE
of this tick. -/
def leaveList (s : State) : State :=
  { s with schedule := s.schedule.filter fun a => a.due != s.ftu.time,
           due := { s.due with releasing := s.due.releasing ++ s.schedule.filter fun a => a.due == s.ftu.time } }

/-- Nothing is to be released any more. -/
def releaseOver (s : State) : State := { s with due := { s.due with releasing := [], moments := [] } }

/-- R83, R84: the actions that left the list at this tick are applied, in list order and with nothing between them. -/
def releaseDue (s : State) : State := applyAll s.due.releasing (releaseOver s)

/-- R85: a forward step by d from T0 releases the entries due in T0 + 1 to T0 + d, at the new T, in list order, and
counts each as stepped (R87). -/
def stepRelease (t0 : Time) (d : Nat) (s : State) : State :=
  let passed := fun a : PendingAction => decide (1 ≤ distance t0 a) && decide (distance t0 a ≤ d)
  let out := s.schedule.filter passed
  applyAll out (count (fun n => { n with stepped := satAdd n.stepped out.length })
    { s with schedule := s.schedule.filter fun a => !passed a })

/-- R88: every pending action is discarded, with one FLUSHED record when there was any. -/
def flushSchedule (s : State) : State :=
  if s.schedule.isEmpty then s
  else
    writeRecord { recordNow .flushed s with value := some (BitVec.ofNat 32 s.schedule.length) }
      { s with schedule := [] }

end Sys2Proof.Machine
end

