-- ==== Sys2Proof/Machine/Trigger.lean ====
section
/-! DEFINITION. The Trigger Table: matching (R62, R67), derivation (R63, R68 to R70) and the walk (R66, R71). -/

namespace Sys2Proof.Machine

/-- R67: the entry is valid, carries the notice's tag, and its filter accepts the notice's origin. -/
def entryMatches (own : StationId) (e : TrigEntry) (n : Notice) : Bool :=
  e.valid && e.tag == n.tag && filterAccepts own e.filter n.origin

/-- R68: the action that entry i derives from a notice, with this operand. -/
def deriveAction (n : Notice) (i : Nat) (e : TrigEntry) (operand : Option Half) : PendingAction :=
  { due := n.reference + e.offset.setWidth 32, channel := e.channel, action := e.action, operand := operand,
    cause := { origin := n.origin, tag := n.tag, sequence := n.sequence, entry := BitVec.ofNat 8 i } }

/-- One entry of a walk (R67 to R71): passed over, skipped with NO_VALUE, or an action derived, noted with MATCH when
the note flag is set, and placed before the next entry is examined. -/
def walkEntry (n : Notice) (i : Nat) (e : TrigEntry) (s : State) : State :=
  if entryMatches s.params.id e n then
    match operandOf e n.value with
    | none => writeRecord (causeRecord .noValue e.channel n.origin n.tag n.sequence (BitVec.ofNat 32 i) s) s
    | some operand =>
      let a := deriveAction n i e operand
      placeAction a
        (if e.note then writeRecord (causeRecord .matched e.channel n.origin n.tag n.sequence a.due s) s else s)
  else s

/-- The walk from index i on (R66). -/
def walkFrom (n : Notice) (i : Nat) : List TrigEntry → State → State
  | [], s => s
  | e :: es, s => walkFrom n (i + 1) es (walkEntry n i e s)

/-- R67, R68: the actions that the walk of a notice derives, in index order. -/
def derivedActions (n : Notice) (s : State) : List PendingAction :=
  s.table.zipIdx.filterMap fun (e, i) =>
    if entryMatches s.params.id e n then (operandOf e n.value).map (deriveAction n i e) else none

/-- R66, R67: a notice is walked down the table from index 0. -/
def walkNotice (n : Notice) (s : State) : State := walkFrom n 0 s.table s

/-- The walk of a notice that comes from outside, by an EVENT or a POST: the release of the present tick, if it is still
due, comes directly before it (R84, R89), by the model's choice behind the other steps of an EVENT (DESIGN CHOICE, log
entry 5, unsafe). -/
def walkArrival (n : Notice) (s : State) : State := walkNotice n (releaseDue s)

end Sys2Proof.Machine
end

