-- ==== Sys2Proof/Machine/Publish.lean ====
section
/-! DEFINITION. Publishing: loopback and the publish queue (R150 to R152), the MARK and ROLL slots (R156), the
transmitter arbiter (R157), and the item an attempt sends (R153, R154).
-/

namespace Sys2Proof.Machine

/-! ### The arbiter (R157) -/

/-- R157 steps 2 and 3: the head of the publish queue, then the ROLL request. -/
def arbiterRest (s : State) : Option Offer :=
  if !s.pub.queue.isEmpty then some .event else if s.pub.rollSlot.isSome then some .roll else none

/-- R157: the MARK request first; a muted station is offered nothing. -/
def arbiterOffer (s : State) : Option Offer :=
  if s.liu.muted then none
  else match s.pub.markSlot with
    | some r => some (.mark r.boundary)
    | none => arbiterRest s

/-- R31: the LIU asks the arbiter while the line is idle, the transmitter is READY and no offer stands. It asks when
the line becomes idle and whenever an item becomes pending while it is idle. -/
def askArbiter (s : State) : State :=
  if s.liu.tx = .ready ∧ s.liu.rx = .waiting ∧ s.liu.offer = none then
    { s with liu := { s.liu with offer := arbiterOffer s } }
  else s

/-! ### The slots (R156) -/

/-- R33, R34: the request on the line is no longer the pending one. -/
def orphanAttempt (item : TxItem) (s : State) : State :=
  { s with liu := { s.liu with
      attempt := s.liu.attempt.map fun a => if a.item = item then { a with pending := false } else a } }

/-- R23: the own MARK request is withdrawn, without a record. -/
def withdrawMark (s : State) : State :=
  orphanAttempt .mark { s with pub := { s.pub with markSlot := none } }

/-- R22, R156: an own MARK request for a boundary, with a fault attempts count of 0. -/
def raiseMark (boundary : Time) (s : State) : State :=
  askArbiter (orphanAttempt .mark
    { s with pub := { s.pub with markSlot := some { boundary := boundary, faults := 0 } } })

/-- R50, R156: a ROLL request with a count of 0; it replaces a pending one. -/
def raiseRoll (s : State) : State :=
  askArbiter (orphanAttempt .roll { s with pub := { s.pub with rollSlot := some { faults := 0 } } })

/-! ### Occurrences and posts (R150 to R152) -/

/-- R152: the event joins the tail of the publish queue, timed in SYNCED and HOLDOVER, or is dropped with
PUBLISH_DROPPED when 16 wait. DESIGN CHOICE (log entry 25), unsafe: at T = 2L and before LISTEN_END it is not timed. -/
def appendEvent (source : Option ChannelId) (tag : Tag) (occurrence : Time) (value : Option Half) (s : State) :
    State :=
  if s.pub.queue.length < Config.queueCapacity then
    askArbiter { s with pub := { s.pub with queue := s.pub.queue ++
      [{ tag := tag, occurrence := occurrence, value := value, timed := lockedOn s, sequence := none,
         restart := false, copiesSent := 0, faults := 0 }] } }
  else writeRecord { recordNow .publishDropped s with channel := source, tag := some tag } s

/-- R150: the local notice is walked whole; then the event is queued when it is for the line. -/
def publishLocal (source : Option ChannelId) (tag : Tag) (occurrence : Time) (value : Option Half)
    (forLine : Bool) (s : State) : State :=
  let s := walkNotice
    { origin := s.params.id, sequence := none, tag := tag, value := value, reference := occurrence } s
  if forLine then appendEvent source tag occurrence value s else s

/-- R150: the local notice of an occurrence. -/
def noticeOf (o : Occurrence) (s : State) : Notice :=
  { origin := s.params.id, sequence := none, tag := o.tag, value := o.value, reference := o.time }

/-- R112, R150: an occurrence reaches Publishing. -/
def publishOccurrence (o : Occurrence) (s : State) : State :=
  publishLocal (some o.channel) o.tag o.time o.value true s

/-- R112: the channel's record, if its flag is set, and then the occurrence for Publishing, if its tag is present. -/
def occur (c : ChannelId) (flag : Bool) (r : Record) (tag : Option Tag) (time : Time) (value : Option Half) (s : State) :
    State × Option Occurrence :=
  (if flag then writeRecord r s else s,
   tag.map fun tag => { channel := c, tag := tag, time := time, value := value })

/-- What a channel event leaves, with its occurrence, if it made one, handed to Publishing at once. -/
def publishEvent (x : State × Option Occurrence) : State :=
  match x.2 with
  | none => x.1
  | some o => publishOccurrence o x.1

/-! ### An occurrence and the release of its tick (R84, R89, R116; log entry 5) -/

/-- R77: the walk of this occurrence hands an action to placement. -/
def placesAction (o : Occurrence) (s : State) : Bool := !(derivedActions (noticeOf o s) s).isEmpty

/-- R79, R80: the actions that the walk of this occurrence applies to channel c at once, in index order. -/
def actionsAt (c : ChannelId) (s : State) (o : Occurrence) : List PendingAction :=
  (derivedActions (noticeOf o s) s).filter fun a => a.channel == c && appliedAtOnce a s

/-- R112, R116, R131, R136, R145: what takes the station from `s` to `t` keeps an action that the occurrence's walk applies
to channel c at once from finding the channel as it stands in `s`. -/
def disturbs (c : ChannelId) (o : Occurrence) (s t : State) : Bool :=
  (actionsAt c s o).any fun a => !findsSame a.action (channelOf s c) (channelOf t c)

/-- R84, R89: a channel event, where the release of its tick may still be due. A walk that places an action comes after
the release: the event first, then the release, then the walk (R103, R121, R125, R128, R134, right columns). Where the walk applies an
action at once to the channel itself, which must find it as the event left it (R116, R131, R136, R145), and the release
would not leave it so, the event itself comes after the release (DEDUCED, log entry 5, unsafe). -/
def takeEventOf (c : ChannelId) (event : State → State × Option Occurrence) (s : State) : State :=
  let x := event s
  match x.2 with
  | none => x.1
  | some o =>
    if s.due.releasing.isEmpty || !placesAction o x.1 then publishOccurrence o x.1
    else if disturbs c o x.1 (releaseDue x.1) then publishEvent (event (releaseDue s))
    else publishOccurrence o (releaseDue x.1)

/-! ### The item of an attempt (R51, R153, R154) -/

/-- R153: the head entry gets the next own sequence when it has none, and the restart flag when restart-pending
is set. -/
def assignSequence (p : Pub) : Pub :=
  match p.queue with
  | [] => p
  | e :: es =>
    match e.sequence with
    | some _ => p
    | none =>
      { p with queue := { e with sequence := some (p.ownSequence + 1), restart := p.restartPending } :: es,
               ownSequence := p.ownSequence + 1, restartPending := false }

/-- R154: the EVENT frame of a queue entry. -/
def eventOfEntry (e : QueueEntry) : EventFields :=
  { timed := e.timed, restart := e.restart, repeatIndex := BitVec.ofNat 2 e.copiesSent,
    sequence := e.sequence.getD 0, tag := e.tag, occurrence := e.occurrence, value := e.value }

/-- R51: the ROLL frame's contents, taken when the attempt begins. DESIGN CHOICE (log entry 25), unsafe: at T = 2L and
before LISTEN_END the state sent is still LISTENING. -/
def rollNow (s : State) : RollFields :=
  { syncState := (stationCode s.ftu.station).setWidth 3, rosterSize := BitVec.ofNat 6 s.roster.length,
    occupancy := BitVec.ofNat 6 s.schedule.length }

/-- R24: the age of the own MARK request, (T - B) mod 2^32. -/
def markAge (s : State) (boundary : Time) : Time := s.ftu.time - boundary

end Sys2Proof.Machine
end

