-- ==== Sys2Proof/Machine/Engine.lean ====
section
/-! DEFINITION. The channel engines at tap instants and pin samples: starts (R102), counts (R99), underflows (R118, R122,
R126, R129, R131, R145), edges (R136), qualification levels (R144). Each event clears the tap instant or
sample it takes, and answers the state it leaves and the occurrence it makes, if any.
-/

namespace Sys2Proof.Machine

/-! ### Counting (R99) -/

/-- The states in which a channel counts down (R97). -/
def countsDown : ChannelState → Bool
  | .active | .lead | .running | .phaseA | .phaseB | .qualifying => true
  | .disabled | .idle | .starting | .counting | .watching | .held => false

/-- R99: the count at this tap instant is an underflow. -/
def underflows (ch : Channel) : Bool := countsDown ch.state && ch.counter == 0

/-- R99, R135: a count that is neither an underflow nor a start: down by one, or up by one with the wrap counted;
no count in a state that does not count. -/
def plainCount (ch : Channel) : Channel :=
  if countsDown ch.state then { ch with counter := ch.counter - 1 }
  else if ch.state = .counting then
    { ch with counter := ch.counter + 1, wrap := if ch.counter = 0xFFFF then satIncByte ch.wrap else ch.wrap }
  else ch

/-- The tap instant of the present tick has been taken. -/
def tapTaken (ch : Channel) : Channel := { ch with tapDue := false }

/-! ### Occurrences of a channel (R112, R113, R116) -/

/-- R113: a record of channel c with its tag, if present, and a value, if any. -/
def channelRecord (kind : RecordKind) (c : ChannelId) (time : Time) (tag : Option Tag)
    (value : Option (BitVec 32)) : Record :=
  { kind := kind, time := time, channel := some c, tag := tag, value := value }

/-- R116: the end occurrence of channel c, after its transition is complete. -/
def endOccurrence (c : ChannelId) (s : State) : State × Option Occurrence :=
  let cfg := (channelOf s c).cfg
  let tag := tagOf cfg.endTag
  occur c (flagEnd cfg) (channelRecord .chEnd c s.ftu.time tag none) tag s.ftu.time none s

/-- R102 step 4, R113: the start occurrence; `shown` is the counter after step 2. -/
def startOccurrence (c : ChannelId) (shown : Half) (s : State) : State × Option Occurrence :=
  let cfg := (channelOf s c).cfg
  let tag := tagOf cfg.startTag
  occur c (flagStart cfg) (channelRecord .chStart c s.ftu.time tag (some (shown.setWidth 32))) tag
    s.ftu.time none s

/-- R112, R137, R145: an input occurrence of channel c with its record's kind and value, its time and its value. -/
def inputOccurrence (c : ChannelId) (kind : RecordKind) (shown : BitVec 32) (time : Time) (value : Option Half)
    (s : State) : State × Option Occurrence :=
  let cfg := (channelOf s c).cfg
  let tag := tagOf cfg.inputTag
  occur c (flagInput cfg) (channelRecord kind c time tag (some shown)) tag time value s

/-! ### Starting (R102) -/

/-- R144: a qualifying run begins: counter from working A, run start time T. -/
def beginRun (t : Time) (ch : Channel) : Channel :=
  { ch with state := .qualifying, counter := ch.workA, runStart := t }

/-- R102 step 1: the register the mode loads at a start, if it loads one. -/
def startLoad (ch : Channel) : Option Half :=
  match ch.cfg.mode with
  | .oneShot | .repeating | .paired => some ch.workA
  | .delayed => some ch.workB
  | .unused | .captureFree | .captureClear | .qualify => none

/-- R102 step 2: the exact counter of a start: the loaded value plus any held correction. -/
def startSum (ch : Channel) (v : Half) : Int := (v.toNat : Int) + ch.held.getD 0

/-- R102 steps 1 and 2: the counter as the start leaves it. -/
def startCounter (ch : Channel) : Channel :=
  match startLoad ch with
  | some v => { ch with counter := clampCounter (startSum ch v), held := none }
  | none => if isCaptureMode ch.cfg.mode then { ch with counter := 0, wrap := 0 } else ch

/-- R102 step 3, R143: the first running state and its output level; a QUALIFY channel examines its pin. -/
def enterRunning (t : Time) (ch : Channel) : Channel :=
  match ch.cfg.mode with
  | .oneShot => { ch with state := .active, output := true }
  | .delayed => { ch with state := .lead, output := false }
  | .repeating => { ch with state := .running, output := true }
  | .paired => { ch with state := .phaseA, output := true }
  | .captureFree | .captureClear => { ch with state := .counting }
  | .qualify =>
    if ch.sampled.any (isActiveLevel ch.cfg) then beginRun t ch else { ch with state := .watching }
  | .unused => ch

/-- R102: the start of channel c, in the order of its four steps. -/
def startChannel (c : ChannelId) (s : State) : State × Option Occurrence :=
  let ch := channelOf s c
  let loaded := startCounter ch
  let clampedSum := (startLoad ch).map (startSum ch)
  let s' := setChannel c (enterRunning s.ftu.time (tapTaken loaded)) s
  let s'' := match clampedSum with
    | some v => if isClamped v then
        writeRecord { recordNow .clamped s with channel := some c, value := some (BitVec.ofInt 32 v) } s'
      else s'
    | none => s'
  startOccurrence c loaded.counter s''

/-! ### Underflows -/

/-- R118: the ONE_SHOT underflow, and R122: the DELAYED underflow in ACTIVE: output idle, IDLE, end occurrence. -/
def pulseUnderflow (c : ChannelId) (s : State) : State × Option Occurrence :=
  let ch := channelOf s c
  endOccurrence c (setChannel c { tapTaken ch with state := .idle, output := false } s)

/-- R122: the DELAYED underflow in LEAD: working A loaded, output active, ACTIVE; no occurrence. -/
def leadUnderflowOf (c : ChannelId) (s : State) : State × Option Occurrence :=
  let ch := channelOf s c
  (setChannel c { tapTaken ch with counter := ch.workA, state := .active, output := true } s, none)

/-- R126: the REPEAT underflow: the output toggles, working A is loaded; an end occurrence when the output has
returned to idle. -/
def repeatUnderflowOf (c : ChannelId) (s : State) : State × Option Occurrence :=
  let ch := channelOf s c
  let s' := setChannel c { tapTaken ch with counter := ch.workA, output := !ch.output } s
  if ch.output then endOccurrence c s' else (s', none)

/-- R129: the PAIRED underflow in PHASE_A: working B loaded, output idle, PHASE_B; no occurrence. -/
def phaseAUnderflowOf (c : ChannelId) (s : State) : State × Option Occurrence :=
  let ch := channelOf s c
  (setChannel c { tapTaken ch with counter := ch.workB, state := .phaseB, output := false } s, none)

/-- R131 step 1: a ready pair is taken; staged B counts only if present. -/
def takePair (ch : Channel) : Channel :=
  if ch.pairReady then
    { ch with workA := ch.stagedA.getD ch.workA, workB := ch.stagedB.getD ch.workB, stagedA := none, stagedB := none,
              pairReady := false }
  else ch

/-- R131: the period boundary, in the order of its four steps. -/
def periodBoundaryOf (c : ChannelId) (s : State) : State × Option Occurrence :=
  let ch := takePair (tapTaken (channelOf s c))
  endOccurrence c (setChannel c { ch with counter := ch.workA, state := .phaseA, output := true } s)

/-- R145: the underflow in QUALIFYING: HELD, then an input occurrence dated at the run start time. -/
def qualifiedOf (c : ChannelId) (s : State) : State × Option Occurrence :=
  let ch := channelOf s c
  let s' := setChannel c { tapTaken ch with state := .held } s
  inputOccurrence c .qualified (s.ftu.time - ch.runStart) ch.runStart none s'

/-- Channel c takes the tap instant of the present tick, if it has not yet: a start, an underflow by its mode and
state, or a plain count (R99). -/
def tapEvent (c : ChannelId) (s : State) : State × Option Occurrence :=
  let ch := channelOf s c
  if !ch.tapDue then (s, none)
  else if ch.state = .starting then startChannel c s
  else if underflows ch then
    match ch.state with
    | .active => pulseUnderflow c s
    | .lead => leadUnderflowOf c s
    | .running => repeatUnderflowOf c s
    | .phaseA => phaseAUnderflowOf c s
    | .phaseB => periodBoundaryOf c s
    | .qualifying => qualifiedOf c s
    | .disabled | .idle | .starting | .counting | .watching | .held => (setChannel c (tapTaken ch) s, none)
  else (setChannel c (plainCount (tapTaken ch)) s, none)

/-- The tap instant, and its occurrence published. -/
def takeTap (c : ChannelId) (s : State) : State := publishEvent (tapEvent c s)

/-! ### Pins (R110, R111, R136, R144) -/

/-- The level that the outside drives on channel c's pin. -/
def pinLevel (s : State) (c : ChannelId) : Bool := s.pins.getLsbD c.val

/-- R136 steps 1 and 2: the counter and T are latched, and CAPTURE_CLEAR clears the counter and wrap count. -/
def latchEdge (t : Time) (ch : Channel) : Channel :=
  let ch := { ch with measureValue := ch.counter, measureTime := t }
  if ch.cfg.mode = .captureClear then { ch with counter := 0, wrap := 0 } else ch

/-- R136, R137: a captured edge; the record's value is wrap count × 65,536 + counter as they stood. -/
def captureEdge (c : ChannelId) (s : State) : State × Option Occurrence :=
  let ch := channelOf s c
  inputOccurrence c .capture ((ch.wrap ++ ch.counter).setWidth 32) s.ftu.time (some ch.counter)
    (setChannel c (latchEdge s.ftu.time ch) s)

/-- R144: a QUALIFY channel follows its pin to this level. -/
def followLevel (t : Time) (level : Bool) (ch : Channel) : Channel :=
  match ch.state with
  | .watching => if isActiveLevel ch.cfg level then beginRun t ch else ch
  | .qualifying | .held => if isActiveLevel ch.cfg level then ch else { ch with state := .watching }
  | .disabled | .idle | .starting | .active | .lead | .running | .phaseA | .phaseB | .counting => ch

/-- R111: the level is recorded as the channel's last sample, and the sample of this local tick is settled. -/
def recordSample (level : Bool) (ch : Channel) : Channel := { ch with sampled := some level, sampleOpen := false }

/-- R111, R136, R143, R144: an input channel takes a sample. The first sample of a joined period is a level, not a
change; a QUALIFY channel in WATCHING takes an active one as its pin reaching the active level. -/
def takeSample (c : ChannelId) (level : Bool) (s : State) : State × Option Occurrence :=
  let ch := channelOf s c
  let s' := setChannel c (recordSample level ch) s
  match ch.cfg.mode with
  | .qualify => (setChannel c (followLevel s.ftu.time level (recordSample level ch)) s, none)
  | .captureFree | .captureClear =>
    if ch.sampled = some (!level) ∧ ch.state = .counting ∧ edgeMatches ch.cfg.edge level = true then
      captureEdge c s'
    else (s', none)
  | .unused | .oneShot | .delayed | .repeating | .paired => (s, none)

/-- R111: the sample of this local tick can show a change at an input channel: it has not been settled, and the level
differs from the last sample or there is none. -/
def changeDue (s : State) (c : ChannelId) : Bool :=
  isInputMode (channelOf s c).cfg.mode && (channelOf s c).sampleOpen && (channelOf s c).sampled != some (pinLevel s c)

/-- A change that this local tick's sample shows and no PIN_CHANGE has taken yet. -/
def sampleEvent (c : ChannelId) (s : State) : State × Option Occurrence :=
  if changeDue s c then takeSample c (pinLevel s c) s else (s, none)

/-- The change, and its occurrence published. -/
def takeSampleDue (c : ChannelId) (s : State) : State := publishEvent (sampleEvent c s)

/-- The level that the outside drives on channel c's pin, changed. -/
def drivePin (c : ChannelId) (level : Bool) (s : State) : State :=
  { s with pins := if level then s.pins ||| (1#8 <<< c.val) else s.pins &&& ~~~(1#8 <<< c.val) }

/-- R111: the pin is driven to this level, and an input channel of a joined station takes it as a change at the present
local tick, if that tick's sample has not yet been settled and shows one. -/
def pinEvent (c : ChannelId) (level : Bool) (s : State) : State × Option Occurrence :=
  if joined s then sampleEvent c (drivePin c level s) else (drivePin c level s, none)

/-! ### A release with channel events among its actions (R84, R99, R134; log entry 33) -/

/-- The channel of a moment. -/
def momentChannel : ChannelMoment → ChannelId
  | .tap c | .pin c _ => c

/-- A channel takes its tap instant, or a pin change, of the present instant. -/
def momentEvent (m : ChannelMoment) (s : State) : State × Option Occurrence :=
  match m with
  | .tap c => tapEvent c s
  | .pin c level => pinEvent c level s

/-- The moment is not taken here: a tap instant stays due, and a pin is driven without its change being taken. -/
def leaveMoment (m : ChannelMoment) (s : State) : State :=
  match m with
  | .tap _ => s
  | .pin c level => drivePin c level s

/-- R116, R131, R136, R145: taken here, in state s and before the actions `left`, this moment `x` of channel c would keep an
action that a walk applies to c at once from finding c as the walk's own event left it: the moment itself for a walk of an
event of c that waits already; or, for the moment's own walk, the actions left and the walks that wait before it. -/
def partsWalk (c : ChannelId) (left : List PendingAction) (s : State) (waiting : List Occurrence)
    (x : State × Option Occurrence) : Bool :=
  (waiting.any fun w => w.channel == c && disturbs c w s x.1) ||
    x.2.any fun o => disturbs c o x.1 (applyAll (left ++ waiting.flatMap (actionsAt c x.1)) x.1)

/-- A moment within a release, before the actions `left`. An occurrence whose walk places an action waits until the
release is over (R84), and so does one whose channel has an occurrence waiting already, as a channel's occurrences keep
their order (R150). Any other is published at once. -/
def takeMoment (left : List PendingAction) (p : State × List Occurrence) (m : ChannelMoment) :
    State × List Occurrence :=
  let x := momentEvent m p.1
  if partsWalk (momentChannel m) left p.1 p.2 x then (leaveMoment m p.1, p.2)
  else
    match x.2 with
    | none => (x.1, p.2)
    | some o =>
      if placesAction o x.1 || p.2.any (fun w => w.channel == o.channel) then (x.1, p.2 ++ [o])
      else (publishOccurrence o x.1, p.2)

/-- R83, R84, R134: the released actions are applied in list order, and before each of them channels take what the
tick's order says. The occurrences whose walks wait are collected. -/
def releaseFrom : List PendingAction → List (List ChannelMoment) → State × List Occurrence → State × List Occurrence
  | [], _, p => p
  | a :: as, moments, p =>
    let p := (moments.headD []).foldl (takeMoment (a :: as)) p
    releaseFrom as moments.tail (applyAction a p.1, p.2)

/-- The occurrences that have waited for the release reach Publishing, each handled whole before the next (R150). -/
def publishWaiting (p : State × List Occurrence) : State := p.2.foldl (fun s o => publishOccurrence o s) p.1

/-- R84, R134: RELEASE: the actions that left the list at this tick reach their channels, with what channels take among
them, and then come the walks of the occurrences made there. -/
def releaseAmong (s : State) : State := publishWaiting (releaseFrom s.due.releasing s.due.moments (releaseOver s, []))

/-! ### Ticks (R99, R111) -/

/-- R99, R111: channel c at a fabric tick that has moved T to `t`. A plain count and a first sample are taken here
unless `late` leaves them for later in the instant; a start or an underflow is a step of its own. -/
def tickChannel (t : Time) (late pin : Bool) (ch : Channel) : Channel :=
  let counted :=
    if ch.cfg.mode != .unused && isTapInstant ch.cfg.rateTap t then
      if late || ch.state == .starting || underflows ch then { ch with tapDue := true } else plainCount ch
    else ch
  if isInputMode ch.cfg.mode then
    if ch.sampled.isNone && !late then followLevel t pin (recordSample pin counted)
    else { counted with sampleOpen := true }
  else counted

/-- R111: channel c at a swallowed tick: an input channel samples, and no count falls. -/
def swallowChannel (t : Time) (pin : Bool) (ch : Channel) : Channel :=
  if isInputMode ch.cfg.mode then
    if ch.sampled.isNone then followLevel t pin (recordSample pin ch) else { ch with sampleOpen := true }
  else ch

/-- What the station does at a pin (R110). -/
inductive PinDrive where
  | highImpedance | input | low | high
  deriving DecidableEq, Repr

/-- R110: the pin of a channel: high-impedance, an input, or driven at the idle level or its opposite. -/
def pinDrive (ch : Channel) : PinDrive :=
  match ch.cfg.mode with
  | .unused => .highImpedance
  | .captureFree | .captureClear | .qualify => .input
  | .oneShot | .delayed | .repeating | .paired =>
    if xor (ch.cfg.idleLevel != 0) ch.output then .high else .low

end Sys2Proof.Machine
end

