-- ==== Sys2Proof/Machine/Roster.lean ====
section
/-! DEFINITION. Acceptance and Roster: upkeep (R46, R47), aging and refresh (R48, R49), the ROLL request (R50), received
rolls (R52), and the judgement and notice of events (R54 to R58).
-/

namespace Sys2Proof.Machine

/-! ### The roster (R44) -/

/-- The entry for an origin. -/
def rosterEntry (s : State) (origin : StationId) : Option RosterEntry := s.roster.find? fun e => e.origin == origin

/-- The entry for an origin changed; the others stay. -/
def updateEntry (origin : StationId) (f : RosterEntry → RosterEntry) (s : State) : State :=
  { s with roster := s.roster.map fun e => if e.origin = origin then f e else e }

/-- R44: a new entry placed so that the ascending origin order holds. -/
def insertEntry (e : RosterEntry) : List RosterEntry → List RosterEntry
  | [] => [e]
  | x :: xs => if e.origin.toNat < x.origin.toNat then e :: x :: xs else x :: insertEntry e xs

/-- R47: a created entry: both epochs that of the arrival instant, the other fields absent. -/
def newEntry (origin : StationId) (epoch : Time) : RosterEntry :=
  { origin := origin, joinedEpoch := epoch, lastHeard := epoch, lastSequence := none, reported := none }

/-- R46, R47: a frame from a peer refreshes its entry, or creates one with PEER_JOINED when there is room; a full
roster without an entry for the origin stays as it is. -/
def hearPeer (origin : StationId) (s : State) : State :=
  let epoch := epochOf s.params.k s.ftu.time
  if (rosterEntry s origin).isSome then updateEntry origin (fun e => { e with lastHeard := epoch }) s
  else if s.roster.length < Config.rosterCapacity then
    writeRecord { recordNow .peerJoined s with origin := some origin }
      { s with roster := insertEntry (newEntry origin epoch) s.roster }
  else s

/-- R48: the entry has not been heard for the age limit, at the mid-epoch instant of epoch `e`. -/
def agedOut (p : Params) (e : Time) (entry : RosterEntry) : Bool :=
  decide (p.ageLimit.toNat ≤ (epochDistance p.k e entry.lastHeard).toNat)

/-- R48: PEER_LOST for a removed entry: its origin, and its last-heard epoch as value. -/
def peerLost (s : State) (entry : RosterEntry) : State :=
  writeRecord { recordNow .peerLost s with origin := some entry.origin, value := some entry.lastHeard } s

/-- R48: aging at the mid-epoch instant of epoch `e`, in ascending origin order. -/
def ageRoster (e : Time) (s : State) : State :=
  (s.roster.filter (agedOut s.params e)).foldl peerLost
    { s with roster := s.roster.filter fun entry => !agedOut s.params e entry }

/-- R50: the ROLL request of epoch `e`: its number is the station's own id modulo I, and not muted. -/
def rollRequest (e : Time) (s : State) : State :=
  if e.toNat % s.params.rollInterval.toNat = s.params.id.toNat % s.params.rollInterval.toNat ∧ s.liu.muted = false then
    raiseRoll s
  else s

/-- R49: at a hard set every entry's last-heard epoch becomes that of the new T. -/
def refreshRoster (s : State) : State :=
  { s with roster := s.roster.map fun e => { e with lastHeard := epochOf s.params.k s.ftu.time } }

/-! ### Events (R54 to R58) -/

/-- How an EVENT is judged (R55). -/
inductive Judgement where
  | accepted | duplicate | stale
  deriving DecidableEq, Repr

/-- R55: by the frame's restart flag and sequence and the entry's last sequence. -/
def judgeEvent (restart : Bool) (sequence : Byte) (last : Option Byte) : Judgement :=
  match last with
  | none => .accepted
  | some last =>
    if sequence = last then .duplicate
    else if restart then .accepted
    else if (sequence - last).toNat ≤ 127 then .accepted
    else .stale

/-- R57: an accepted event is timed when its flag is set and the station is SYNCED or HOLDOVER. DESIGN CHOICE (log entry
25), unsafe: at T = 2L and before LISTEN_END the station is still in LISTENING. -/
def isTimed (e : EventFields) (s : State) : Bool := e.timed && lockedOn s

/-- R57, R58: the notice of an accepted event. -/
def eventNotice (origin : StationId) (e : EventFields) (s : State) : Notice :=
  { origin := origin, sequence := some e.sequence, tag := e.tag, value := e.value,
    reference := if isTimed e s then e.occurrence else s.ftu.time }

/-- R54 step 4: last sequence set, untimed counted, notice walked. DESIGN CHOICE (log entry 5), unsafe: a release of the
present tick that is still due comes here, directly before the walk, and so behind the upkeep of step 1, whose PEER_JOINED
record stands before the release's records. -/
def acceptEvent (origin : StationId) (e : EventFields) (s : State) : State :=
  let n := eventNotice origin e s
  let s' := updateEntry origin (fun entry => { entry with lastSequence := some e.sequence }) s
  walkArrival n (if isTimed e s then s' else count (fun c => { c with untimed := satInc c.untimed }) s')

/-- R54: an EVENT from a peer, in the order of its four steps. It does not take a listen end that the tick has reached
(log entry 25). -/
def takeEvent (origin : StationId) (e : EventFields) (s : State) : State :=
  let s := hearPeer origin s
  match rosterEntry s origin with
  | none => count (fun c => { c with unlisted := satInc c.unlisted }) s
  | some entry =>
    match judgeEvent e.restart e.sequence entry.lastSequence with
    | .accepted => acceptEvent origin e s
    | .duplicate => count (fun c => { c with duplicates := satInc c.duplicates }) s
    | .stale => count (fun c => { c with stale := satInc c.stale }) s

/-! ### Rolls and own-id frames -/

/-- R27: the station state a sync state field encodes. -/
def stateOfSync (code : BitVec 3) : StationState :=
  if code = 1 then .listening else if code = 2 then .synced else if code = 3 then .holdover
  else if code = 4 then .discord else .detached

/-- R52: the three reported fields, which always come from the same ROLL. -/
def reportedBy (r : RollFields) : Reported :=
  { state := stateOfSync r.syncState, rosterSize := r.rosterSize, occupancy := r.occupancy }

/-- R47, R52: a ROLL from a peer. -/
def takeRoll (origin : StationId) (r : RollFields) (s : State) : State :=
  let s := hearPeer origin s
  if (rosterEntry s origin).isSome then
    updateEntry origin (fun e => { e with reported := some (reportedBy r) }) s
  else writeRecord { recordNow .rosterFull s with origin := some origin } s

/-- R53: a frame with the own id is counted and set aside. -/
def ownIdFrame (s : State) : State := count (fun c => { c with ownId := satInc c.ownId }) s

end Sys2Proof.Machine
end

