-- ==== Sys2Proof/Machine/Ftu.lean ====
section
/-! DEFINITION. The Fabric Time Unit at boundaries and mid-epoch instants (R13, R20 to R22), the LIU's mute count
(R37), and the present instant: what a tick has reached waits in `State.due` until a command takes it, and
is taken before T moves again (R4, R84; log entry 4).
-/

namespace Sys2Proof.Machine

/-- The FTU's items changed. -/
def setFtu (f : Ftu → Ftu) (s : State) : State := { s with ftu := f s.ftu }

/-! ### Mute (R37) -/

/-- R37: the entry that caused the mute, which has kept a count of 8, is set to 0. -/
def clearMuteCause (e : QueueEntry) : QueueEntry := if Config.muteFaults ≤ e.faults then { e with faults := 0 } else e

/-- R37: the mute spell ends, with LINE_UNMUTE. -/
def endMute (s : State) : State :=
  writeRecord (recordNow .lineUnmute s)
    { s with liu := { s.liu with muted := false, muteLeft := 0 },
             pub := { s.pub with queue := s.pub.queue.map clearMuteCause } }

/-- R37: the boundaries remaining decrease by one while more than one remains. -/
def countMute (s : State) : State := { s with liu := { s.liu with muteLeft := s.liu.muteLeft - 1 } }

/-- R37: the boundary the LIU takes is the last of the spell. -/
def lastMuteBoundary (s : State) : Bool := s.liu.muted && decide (s.liu.muteLeft.toNat ≤ 1)

/-- R37: the LIU takes a boundary. -/
def muteBoundary (s : State) : State :=
  if lastMuteBoundary s then endMute s else if s.liu.muted then countMute s else s

/-! ### Boundaries (R22) -/

/-- R22: a pending own MARK request for an earlier boundary is withdrawn. -/
def withdrawEarlier (boundary : Time) (s : State) : State :=
  match s.pub.markSlot with
  | some r => if signedDifference r.boundary boundary < 0 then withdrawMark s else s
  | none => s

/-- R22: a boundary reached by a fabric tick, at the FTU. -/
def ftuBoundary (boundary : Time) (s : State) : State :=
  if lockedOn s then
    let s := withdrawEarlier boundary s
    if s.ftu.marker ≠ some boundary ∧ s.liu.muted = false then raiseMark boundary s else s
  else s

/-! ### Mid-epoch instants (R20, R21, R48, R50) -/

/-- R21: HOLDOVER_LIMIT when a setting or an increase has made the count equal to H. -/
def limitRecord (s : State) : State :=
  if s.ftu.holdoverCount = s.params.holdoverLimit then writeRecord (recordNow .holdoverLimit s) s else s

/-- R20, R21: entry into HOLDOVER. -/
def enterHoldover (s : State) : State :=
  limitRecord (writeRecord (recordNow .holdoverEnter s)
    (setFtu (fun f => { f with station := .holdover, holdoverCount := 1, discordCount := 0 }) s))

/-- R20: the holdover check of a boundary. -/
def holdoverCheck (boundary : Time) (s : State) : State :=
  if s.ftu.marker = some boundary then s
  else
    match s.ftu.station with
    | .synced | .discord => enterHoldover s
    | .holdover =>
      if s.ftu.holdoverCount = 0xFF then s
      else limitRecord (setFtu (fun f => { f with holdoverCount := f.holdoverCount + 1 }) s)
    | .detached | .listening => s

/-- R48, R50: the roster's part of the mid-epoch instant of epoch `e`. -/
def rosterMidEpoch (e : Time) (s : State) : State := rollRequest e (ageRoster e s)

/-- R4, R20, R48, R50: the mid-epoch instant `m`, taken by the FTU and by the roster in either order. -/
def midEpochAt (m : Time) (rosterFirst : Bool) (s : State) : State :=
  let e := epochOf s.params.k m
  let boundary := m - epochLength s.params.k >>> 1
  if rosterFirst then holdoverCheck boundary (rosterMidEpoch e s) else rosterMidEpoch e (holdoverCheck boundary s)

/-! ### The present instant (log entry 4) -/

/-- R13: a fabric tick has moved T to the listen end in LISTENING. -/
def listenEndDue (s : State) : Bool := s.ftu.station == .listening && s.ftu.time == s.ftu.listenEnd

/-- R13: the listen period ends, if its end is reached: SYNCED alone, a record with neither origin nor value. -/
def takeListenEnd (s : State) : State :=
  if listenEndDue s then
    writeRecord (recordNow .synced s) (setFtu (fun f => { f with station := .synced }) s)
  else s

/-- The LIU's share of the reached boundary has been taken. -/
def liuBoundaryTaken (s : State) : State := { s with due := { s.due with liuBoundary := false } }

/-- R37: the LIU takes the reached boundary, unless it is the last of a mute spell. -/
def takeMuteCount (s : State) : State :=
  if s.due.liuBoundary && !lastMuteBoundary s then liuBoundaryTaken (muteBoundary s) else s

/-- R37: the LIU takes the reached boundary when it is the last of a mute spell. -/
def takeUnmute (s : State) : State :=
  if s.due.liuBoundary && lastMuteBoundary s then liuBoundaryTaken (endMute s) else s

/-- R22: the FTU takes the boundary that the tick reached, after the listen end that falls on it (R13); the LIU
counts it for a mute spell that does not end at it. -/
def takeBoundary (s : State) : State :=
  if s.due.ftuBoundary then
    let s := takeListenEnd s
    takeMuteCount (ftuBoundary s.ftu.time { s with due := { s.due with ftuBoundary := false } })
  else s

/-- The mid-epoch instant that the tick reached is taken. -/
def takeMidEpoch (rosterFirst : Bool) (s : State) : State :=
  if s.due.midEpoch then
    midEpochAt s.ftu.time rosterFirst { s with due := { s.due with midEpoch := false } }
  else s

/-- Channel c takes what is left of the present tick: its tap instant, then a pin change. -/
def settleChannel (s : State) (c : ChannelId) : State := takeSampleDue c (takeTap c s)

/-- Everything the present instant has reached and no command has taken is taken: listen end, boundary, unmute,
mid-epoch instant, release, channels in order. DESIGN CHOICE (log entry 4): where the chapters leave the
order of these open and the sender has not chosen one, this is the order. -/
def settle (s : State) : State :=
  allChannels.foldl settleChannel
    (releaseDue (takeMidEpoch false (takeUnmute (takeMuteCount (takeBoundary (takeListenEnd s))))))

end Sys2Proof.Machine
end

