-- ==== Sys2Proof/Machine/Marks.lean ====
section
/-! DEFINITION. Mark arrivals at the FTU: reference and offset (R9), in-window marks (R14, R18), forward steps (R15),
discord (R17), hard sets (R11), adoption (R12) and resync (R19). Whatever the present instant has reached is
taken before T moves (log entry 4).
-/

namespace Sys2Proof.Machine

/-- R9: the fabric time that a mark implies for its arrival instant. -/
def markReference (p : Params) (m : MarkFields) : Time := m.boundary + m.age.setWidth 32 + p.latency.setWidth 32

/-- R9: the offset d, the signed difference of the reference from T. -/
def markOffset (s : State) (m : MarkFields) : Int := signedDifference (markReference s.params m) s.ftu.time

/-- R9: in-window when -W ≤ d ≤ W. -/
def inWindow (s : State) (m : MarkFields) : Bool :=
  decide (-(s.params.window.toNat : Int) ≤ markOffset s m) && decide (markOffset s m ≤ s.params.window.toNat)

/-- R4: the last boundary at or before `t`. -/
def boundaryAtOrBefore (k : Byte) (t : Time) : Time := t - intoEpoch k t

/-- R4: the last mid-epoch instant at or before `t`. -/
def midEpochAtOrBefore (k : Byte) (t : Time) : Time :=
  boundaryAtOrBefore k (t - epochLength k >>> 1) + epochLength k >>> 1

/-- R4: a forward step of d ticks that ended at `t` has reached the time `v`. -/
def reachedByStep (t : Time) (d : Nat) (v : Time) : Bool := decide ((t - v).toNat < d)

/-- R15, R22, R37: a boundary reached by a step: an earlier request is withdrawn, the mute count is taken, and no
request is raised. -/
def stepBoundary (boundary : Time) (s : State) : State :=
  muteBoundary (if lockedOn s then withdrawEarlier boundary s else s)

/-- R15: what a step of d ticks that ended at the present T has reached, besides due times. -/
def stepReached (d : Nat) (agingFirst : Bool) (s : State) : State :=
  let t := s.ftu.time
  let b := boundaryAtOrBefore s.params.k t
  let m := midEpochAtOrBefore s.params.k t
  let s := if reachedByStep t d b then stepBoundary b s else s
  if reachedByStep t d m then midEpochAt m agingFirst s else s

/-- R15: a forward step by d. The blocks take what it reached in either order (R4); the records they write bear the T
after the step (log entry 8). -/
def forwardStep (d : Nat) (order : MarkOrder) (s : State) : State :=
  let s := settle s
  let t0 := s.ftu.time
  let s := setFtu (fun f => { f with time := t0 + BitVec.ofNat 32 d }) s
  if order.releaseFirst then stepReached d order.agingFirst (stepRelease t0 d s)
  else stepRelease t0 d (stepReached d order.agingFirst s)

/-- R14 steps 4 and 5: the stall remainder by d, and a forward step for d > 0. -/
def followOffset (d : Int) (order : MarkOrder) (s : State) : State :=
  let s := setFtu (fun f => { f with stall := if d < 0 then BitVec.ofNat 16 d.natAbs else 0 }) s
  if 0 < d then forwardStep d.natAbs order s else s

/-- A SYNCED record with a mark's origin, and a value only on leaving HOLDOVER (R12, R14, R18). -/
def syncedRecord (origin : StationId) (value : Option (BitVec 32)) (s : State) : Record :=
  { recordNow .synced s with origin := some origin, value := value }

/-- R14 step 2: HOLDOVER ends, with a SYNCED record whose value is the holdover count. -/
def leaveHoldover (origin : StationId) (s : State) : State :=
  if s.ftu.station = .holdover then
    writeRecord (syncedRecord origin (some (s.ftu.holdoverCount.setWidth 32)) s)
      (setFtu (fun f => { f with station := .synced, holdoverCount := 0 }) s)
  else s

/-- R14 step 3: an own MARK request for the same boundary is withdrawn. -/
def withdrawSame (boundary : Time) (s : State) : State :=
  match s.pub.markSlot with
  | some r => if r.boundary = boundary then withdrawMark s else s
  | none => s

/-- R14: an in-window MARK in SYNCED or HOLDOVER, in the order of its five steps. -/
def followMark (origin : StationId) (m : MarkFields) (order : MarkOrder) (s : State) : State :=
  let d := markOffset s m
  followOffset d order (withdrawSame m.boundary (leaveHoldover origin
    (setFtu (fun f => { f with marker := some m.boundary }) s)))

/-- R17: an out-of-window MARK in SYNCED or HOLDOVER. -/
def enterDiscord (origin : StationId) (m : MarkFields) (s : State) : State :=
  let d := markOffset s m
  writeRecord { recordNow .discordEnter s with origin := some origin, value := some (BitVec.ofInt 32 d) }
    (withdrawMark (setFtu (fun f => { f with station := .discord, discordCount := 1, holdoverCount := 0, stall := 0 }) s))

/-- R18: an in-window MARK in DISCORD ends the spell. -/
def endDiscord (origin : StationId) (m : MarkFields) (order : MarkOrder) (s : State) : State :=
  let d := markOffset s m
  followOffset d order (writeRecord (syncedRecord origin none s)
    (setFtu (fun f => { f with marker := some m.boundary, discordCount := 0, station := .synced }) s))

/-- R11: a hard set, in the order of its five steps. No instant is reached by the change (R4). -/
def hardSet (m : MarkFields) (s : State) : State :=
  refreshRoster (flushSchedule
    (setFtu (fun f => { f with time := markReference s.params m, stall := 0, marker := some m.boundary }) s))

/-- R12: an adoption. -/
def adopt (origin : StationId) (m : MarkFields) (s : State) : State :=
  let s := setFtu (fun f => { f with discordCount := 0, holdoverCount := 0, station := .synced }) (hardSet m s)
  writeRecord (syncedRecord origin none s) s

/-- R19: a resync on the third out-of-window mark of a spell; its record bears d as computed before the hard set. -/
def resync (origin : StationId) (m : MarkFields) (s : State) : State :=
  let d := markOffset s m
  let s := hardSet m s
  setFtu (fun f => { f with discordCount := 0, holdoverCount := 0, station := .synced })
    (writeRecord { recordNow .resync s with origin := some origin, value := some (BitVec.ofInt 32 d) } s)

/-- R19: an out-of-window MARK in DISCORD. -/
def countDiscord (origin : StationId) (m : MarkFields) (s : State) : State :=
  if s.ftu.discordCount.toNat + 1 < Config.resyncCount then
    setFtu (fun f => { f with discordCount := f.discordCount + 1 }) s
  else resync origin m s

/-- The mark will make a hard set: an adoption, or a resync (R12, R19). -/
def hardSets (s : State) (m : MarkFields) : Bool :=
  match s.ftu.station with
  | .listening => true
  | .discord => !inWindow s m && decide (Config.resyncCount ≤ s.ftu.discordCount.toNat + 1)
  | .detached | .synced | .holdover => false

/-- The mark will set a stall remainder (R14, R18). -/
def willStall (s : State) (m : MarkFields) : Bool :=
  inWindow s m && decide (markOffset s m < 0) &&
    match s.ftu.station with
    | .synced | .holdover | .discord => true
    | .detached | .listening => false

/-- R16: a stalled T reaches no mid-epoch instant, so the instant that the tick has already reached is judged before a
stall begins; a mark that names the boundary it judges satisfies it first (R20; log entry 4). -/
def judgeBeforeStall (m : MarkFields) (agingFirst : Bool) (s : State) : State :=
  if s.due.midEpoch then
    takeMidEpoch agingFirst
      (if m.boundary = s.ftu.time - epochLength s.params.k >>> 1 then
        setFtu (fun f => { f with marker := some m.boundary }) s
      else s)
  else s

/-- R18: the mark is an in-window MARK in DISCORD, which ends the spell. -/
def endsDiscord (s : State) (m : MarkFields) : Bool := s.ftu.station == .discord && inWindow s m

/-- R22: a boundary reached in DISCORD raises no request, so one that a tick reached in the spell and that is still due
is taken, as reached in DISCORD, before a mark ends the spell (R18; log entry 4). -/
def boundaryOfSpell (m : MarkFields) (s : State) : State := if endsDiscord s m then takeBoundary s else s

/-- What the present instant has reached and the mark cannot come before: all of it when the mark makes a hard set
(R4), the boundary when it ends a spell of DISCORD (R22), the mid-epoch instant when it begins a stall (R16). -/
def beforeMark (m : MarkFields) (order : MarkOrder) (s : State) : State :=
  if hardSets s m then settle s
  else if willStall s m then judgeBeforeStall m order.agingFirst (boundaryOfSpell m s)
  else boundaryOfSpell m s

/-- R9: a peer's MARK at the FTU, by station state. What the present instant has reached is taken before a hard
set moves T; a tick that has reached the listen end thus ends LISTENING before the mark is judged (R13). -/
def ftuTakesMark (origin : StationId) (m : MarkFields) (order : MarkOrder) (s : State) : State :=
  let s := beforeMark m order s
  match s.ftu.station with
  | .detached => s
  | .listening => adopt origin m s
  | .synced | .holdover => if inWindow s m then followMark origin m order s else enterDiscord origin m s
  | .discord => if inWindow s m then endDiscord origin m order s else countDiscord origin m s

/-- R41: a peer's MARK reaches the FTU and the roster independently, in either order. -/
def takeMark (origin : StationId) (m : MarkFields) (order : MarkOrder) (s : State) : State :=
  if order.rosterFirst then ftuTakesMark origin m order (hearPeer origin s)
  else hearPeer origin (ftuTakesMark origin m order s)

end Sys2Proof.Machine
end

