-- ==== Sys2Proof/Machine/Liu.lean ====
section
/-! DEFINITION. The Line Interface Unit: attempts and their outcomes (R31 to R34, R155, R156), mute entry (R36),
draining (R42), the receiver's delivery and discards (R38 to R41).
-/

namespace Sys2Proof.Machine

/-- The LIU's items changed. -/
def setLiu (f : Liu → Liu) (s : State) : State := { s with liu := f s.liu }

/-! ### Beginning an attempt (R24, R31, R157) -/

/-- R31: an attempt can begin: joined, READY, not muted, line idle. -/
def canAttempt (s : State) : Bool :=
  joined s && s.liu.tx == .ready && s.liu.rx == .waiting && !s.liu.muted

/-- R31, R38: the frame is on the line, its contents held until the attempt ends; the receiver is in TAKING with it.
DESIGN CHOICE (log entry 34), unsafe: it is so from the attempt's beginning, before the start bit has been read back. -/
def startFrame (item : TxItem) (body : FrameBody) (itemPending : Bool) (s : State) : State :=
  let a : Attempt := { item := item, frame := ⟨s.params.id, body⟩, won := false, pending := itemPending }
  setLiu (fun l => { l with tx := .head, rx := .taking, recessive := 0, offer := none, attempt := some a }) s

/-- The MARK slot holds a request for this boundary. -/
def markPending (boundary : Time) (s : State) : Bool := s.pub.markSlot.any fun r => r.boundary == boundary

/-- R31: the attempt of an offered item begins; the MARK age, the EVENT sequence and flags and the ROLL fields are
taken now (R24, R51, R153, R154). DESIGN CHOICE (log entry 20), unsafe: an offered ROLL whose request a newer one has
replaced before the attempt begins is sent as the newer request. -/
def beginAttempt (o : Offer) (s : State) : State :=
  match o with
  | .mark b => startFrame .mark (.mark { boundary := b, age := (markAge s b).setWidth 16 }) (markPending b s) s
  | .event =>
    let s' := { s with pub := assignSequence s.pub }
    match s'.pub.queue with
    | [] => s
    | e :: _ => startFrame .event (.event (eventOfEntry e)) true s'
  | .roll => startFrame .roll (.roll (rollNow s)) s.pub.rollSlot.isSome s

/-- R24: the age check passes: the age is at most W. -/
def ageOk (b : Time) (s : State) : Bool := decide ((markAge s b).toNat ≤ s.params.window.toNat)

/-- R24, R157: the offered item's attempt. An own MARK request older than W is withdrawn, and what comes next in the
arbiter's order begins in its place, if anything does (log entry 12). DESIGN CHOICE (log entry 20), unsafe: where a
boundary has put a newer request into the slot since the offer, the offered one fails the check, the arbiter still answers
from step 2, and the newer request stays in the slot, to be offered when another item becomes pending or the line is next
idle. -/
def attemptOffer (s : State) : State :=
  match s.liu.offer with
  | none => s
  | some (.mark b) =>
    if ageOk b s then beginAttempt (.mark b) s
    else
      let s := setLiu (fun l => { l with offer := none }) (withdrawSame b s)
      match arbiterRest s with
      | some o => beginAttempt o s
      | none => s
  | some .event => beginAttempt .event s
  | some .roll => beginAttempt .roll s

/-! ### How an attempt ends (R32 to R34, R42) -/

/-- The attempt is over and the transmitter READY; the receiver goes on with what is on the line. DESIGN CHOICE (log entry
34), unsafe: it does so in TAKING after a bit fault at position 0 too, where no start bit was read. -/
def attemptOver (s : State) : State := setLiu (fun l => { l with tx := .ready, attempt := none }) s

/-- R42, R43: the end of a draining frame: OFF, or READY after a COMMIT; no outcome is reported. -/
def drainingOver (s : State) : State :=
  setLiu (fun l => { l with tx := if joined s then .ready else .off, attempt := none }) s

/-- R36: mute entry: LINE_MUTE, 16 boundaries, both slots emptied; the queue is kept. -/
def enterMute (s : State) : State :=
  writeRecord { recordNow .lineMute s with value := some (BitVec.ofNat 32 Config.muteFaults) }
    { s with liu := { s.liu with muted := true, muteLeft := BitVec.ofNat 8 Config.muteBoundaries, offer := none },
             pub := { s.pub with markSlot := none, rollSlot := none } }

/-- R33 step 3: the fault attempts of a pending item, one more. -/
def addFault (item : TxItem) (p : Pub) : Pub :=
  match item with
  | .mark => { p with markSlot := p.markSlot.map fun r => { r with faults := r.faults + 1 } }
  | .roll => { p with rollSlot := p.rollSlot.map fun r => { r with faults := r.faults + 1 } }
  | .event =>
    match p.queue with
    | [] => p
    | e :: es => { p with queue := { e with faults := e.faults + 1 } :: es }

/-- The fault attempts of an item. -/
def faultsOf (item : TxItem) (p : Pub) : Nat :=
  match item with
  | .mark => (p.markSlot.map MarkRequest.faults).getD 0
  | .roll => (p.rollSlot.map RollRequest.faults).getD 0
  | .event => (p.queue.head?.map QueueEntry.faults).getD 0

/-- R33: a bit fault of an attempt that is not draining, in the order of its steps. -/
def faultAttempt (a : Attempt) (s : State) : State :=
  let s := count (fun c => { c with bitFaults := satInc c.bitFaults }) (attemptOver s)
  if a.pending then
    let s := { s with pub := addFault a.item s.pub }
    if Config.muteFaults ≤ faultsOf a.item s.pub then enterMute s else s
  else s

/-- R155: a completed copy of the head entry. -/
def copyCompleted (copies : Nat) (q : List QueueEntry) : List QueueEntry :=
  match q with
  | [] => []
  | e :: es => if e.copiesSent + 1 = copies then es else { e with copiesSent := e.copiesSent + 1, faults := 0 } :: es

/-- R25: the FTU takes the completion of its own MARK for a boundary. -/
def ownMarkCompleted (a : Attempt) (s : State) : State :=
  match a.frame.body with
  | .mark m => if joined s then setFtu (fun f => { f with marker := some m.boundary }) s else s
  | .event _ | .roll _ => s

/-- R34, R155, R156: COMPLETED at the arbiter, and at the FTU for an own MARK. -/
def completeAttempt (a : Attempt) (s : State) : State :=
  match a.item with
  | .mark =>
    ownMarkCompleted a (if a.pending then { s with pub := { s.pub with markSlot := none } } else s)
  | .event =>
    if a.pending then { s with pub := { s.pub with queue := copyCompleted s.params.copies.toNat s.pub.queue } } else s
  | .roll => if a.pending then { s with pub := { s.pub with rollSlot := none } } else s

/-! ### Receiving (R38 to R41) -/

/-- The receiver is inside a frame that the station does not itself send (R34, R38, R43). -/
def receiving (s : State) : Bool := joined s && s.liu.rx == .taking && s.liu.tx == .ready

/-- R38: a frame has ended or been abandoned; recessive bit times are counted from its end on. -/
def frameEnds (s : State) : State := setLiu (fun l => { l with rx := .seeking, recessive := 0 }) s

/-- R39: a frame discarded as malformed. -/
def discardMalformed (s : State) : State := count (fun c => { c with malformed := satInc c.malformed }) (frameEnds s)

/-- R39: a frame discarded for its check. -/
def discardChecked (s : State) : State := count (fun c => { c with checkErrors := satInc c.checkErrors }) (frameEnds s)

/-- R41: a frame with a good check is delivered: to `own` when its origin is the station's id, else to `peer`. One
that breaks R40 is malformed. -/
def deliver (f : Frame) (own peer : State → State) (s : State) : State :=
  if receiving s then
    if frameWellFormed f then
      let s := count (fun c => { c with framesReceived := satInc c.framesReceived }) (frameEnds s)
      if f.origin = s.params.id then own s else peer s
    else discardMalformed s
  else s

end Sys2Proof.Machine
end

