-- ==== Sys2Proof/Machine/Snapshot.lean ====
section
/-! DEFINITION. The bytes that the station port's reads return: records (R172), status (R174), roster entries, pending
actions and channels (R175).
-/

namespace Sys2Proof.Machine

/-- R172: a record as 16 bytes; an absent field reads 0. -/
def recordBytes (r : Record) : List Byte :=
  [recordCode r.kind, recordPresence r] ++ be32 r.time ++
    [BitVec.ofNat 8 ((r.channel.map Fin.val).getD 0), (r.origin.getD 0).setWidth 8] ++
    be16 ((r.tag.getD 0).setWidth 16) ++ [r.sequence.getD 0] ++ be32 (r.value.getD 0) ++ [0]

/-- R174: the ten counters, two bytes each. -/
def counterBytes (c : Counters) : List Byte :=
  be16 c.framesReceived ++ be16 c.checkErrors ++ be16 c.malformed ++ be16 c.bitFaults ++ be16 c.duplicates ++
    be16 c.stale ++ be16 c.unlisted ++ be16 c.ownId ++ be16 c.untimed ++ be16 c.stepped

/-- R174: the 39 bytes of READ_STATUS. -/
def statusBytes (s : State) : List Byte :=
  [stationCode s.ftu.station] ++ be32 s.ftu.time ++ be32 (epochOf s.params.k s.ftu.time) ++
    [s.ftu.holdoverCount, s.ftu.discordCount, flagByte 1 s.liu.muted, s.liu.muteLeft,
     BitVec.ofNat 8 s.schedule.length, BitVec.ofNat 8 s.pub.queue.length, BitVec.ofNat 8 s.roster.length,
     BitVec.ofNat 8 s.log.records.length] ++ be16 s.log.lost ++ counterBytes s.counters

/-- R175: a roster entry as 14 bytes. -/
def rosterBytes (e : RosterEntry) : List Byte :=
  [e.origin.setWidth 8] ++ be32 e.joinedEpoch ++ be32 e.lastHeard ++
    [rosterPresence e, e.lastSequence.getD 0, (e.reported.map fun r => stationCode r.state).getD 0,
     (e.reported.map fun r => r.rosterSize.setWidth 8).getD 0, (e.reported.map fun r => r.occupancy.setWidth 8).getD 0]

/-- R175: a pending action as 14 bytes. -/
def actionBytes (a : PendingAction) : List Byte :=
  be32 a.due ++ [BitVec.ofNat 8 a.channel.val, actionCode a.action, actionPresence a] ++ be16 (a.operand.getD 0) ++
    [a.cause.origin.setWidth 8] ++ be16 (a.cause.tag.setWidth 16) ++ [a.cause.sequence.getD 0, a.cause.entry]

/-- R165, R175: a working configuration in the format of the image. -/
def configBytes (c : ChannelConfig) : List Byte :=
  [modeCode c.mode, c.rateTap] ++ be16 c.initialA ++ be16 c.initialB ++ [c.idleLevel, c.edge, c.activeLevel, c.flags] ++
    be16 c.startTag ++ be16 c.endTag ++ be16 c.inputTag

/-- R175: a channel as 43 bytes. -/
def channelBytes (ch : Channel) : List Byte :=
  configBytes ch.cfg ++ [channelStateCode ch.state] ++ be16 ch.counter ++ be16 ch.workA ++ be16 ch.workB ++
    [channelFlags ch] ++ be16 (ch.stagedA.getD 0) ++ be16 (ch.stagedB.getD 0) ++
    be32 (BitVec.ofInt 32 (ch.held.getD 0)) ++ be16 ch.measureValue ++ be32 ch.measureTime ++ [ch.wrap] ++
    be32 ch.runStart

end Sys2Proof.Machine
end

