-- ==== Sys2Proof/Machine/Port.lean ====
section
/-! DEFINITION. The station port: the meanings of the ten requests, of an unknown request, of a cut transaction, of the
removal of a read record, and of the RESET pin (R161 to R176). While RESET is low the port takes nothing.
-/

namespace Sys2Proof.Machine

/-- The next state of a command that stops nothing. -/
abbrev Result := Host.Outcome State Fault Refusal

/-- R176: the port takes requests unless RESET is low. -/
def whenHigh (f : State → State) (s : State) : State := if s.port.resetLow then s else f s

/-- R161: a transaction that is cut short is ignored: it is answered nothing, and it ends what came before. -/
def cutShort (s : State) : State := answer [] s

/-- R163: the offset and length lie within the image, and the length is 1 to 255. -/
def imageRangeOk (offset : Half) (length : Byte) : Bool :=
  decide (1 ≤ length.toNat) && decide (offset.toNat + length.toNat ≤ Config.imageBytes)

/-! ### WRITE_IMAGE and READ_IMAGE (R163) -/

/-- R162, R163: the state test first, then the argument checks; the data is written at once. With fewer data bytes than
the length says the request is never taken (R161); later bytes are ignored. -/
def writeImage (offset : Half) (length : Byte) (data : List Byte) (s : State) : State :=
  if data.length < length.toNat then cutShort s
  else if joined s then answer [statusLocked] s
  else if imageRangeOk offset length then
    answer [statusOk] { s with image := writeCells s.image offset.toNat (data.take length.toNat) }
  else answer [statusBadRequest] s

/-- WRITE_IMAGE. -/
def execWriteImage (offset : Half) (length : Byte) (data : List Byte) (s : State) : Result :=
  .next (whenHigh (writeImage offset length data) s)

/-- R163: READ_IMAGE in any station state. -/
def readImage (offset : Half) (length : Byte) (s : State) : State :=
  if imageRangeOk offset length then answer (statusOk :: readCells s.image offset.toNat length.toNat) s
  else answer [statusBadRequest] s

/-- READ_IMAGE. -/
def execReadImage (offset : Half) (length : Byte) (s : State) : Result := .next (whenHigh (readImage offset length) s)

/-! ### COMMIT and LEAVE (R167, R168) -/

/-- R7: the FTU at a COMMIT that passes. -/
def ftuAtCommit (k : Byte) : Ftu :=
  { time := 0, station := .listening, stall := 0, marker := none, holdoverCount := 0, discordCount := 0,
    listenEnd := epochLength k <<< 1 }

/-- R43: the LIU at a COMMIT that passes; a frame begun before a LEAVE goes on draining. The ten recessive
bit times are counted from the COMMIT on (DEDUCED, log entry 9). -/
def liuAtCommit (l : Liu) : Liu :=
  let l := { l with rx := .seeking, recessive := 0, offer := none, muted := false, muteLeft := 0 }
  if l.tx = .draining then l else { l with tx := .ready, attempt := none }

/-- R95, R98: a channel at a COMMIT that passes. -/
def channelAtCommit (cfg : ChannelConfig) : Channel :=
  { Channel.reset with cfg := cfg, state := if cfg.mode = .unused then .disabled else .idle,
                       workA := cfg.initialA, workB := cfg.initialB }

/-- R160: Publishing at a COMMIT that passes. -/
def pubAtCommit (p : Pub) : Pub := { p with queue := [], markSlot := none, rollSlot := none, restartPending := true }

/-- R168: the image taken as the working configuration, and the fabric joined. The record queue and the lost count
stand as they are. -/
def commitImage (s : State) : State :=
  { s with
    ftu := ftuAtCommit (paramsOf s.image).k
    params := paramsOf s.image
    liu := liuAtCommit s.liu
    counters := .zero
    roster := []
    table := trigTableOf s.image
    schedule := []
    channels := Vector.ofFn fun c => channelAtCommit (channelConfigAt s.image c.val)
    pub := pubAtCommit s.pub
    due := .none }

/-- R162, R167, R168: a COMMIT; its response always carries a reason and an item index. -/
def commitRequest (s : State) : State :=
  if joined s then answer [statusLocked, 0, 0] s
  else match validate s.image with
    | some (reason, item) => answer [statusBadImage, reason, item] s
    | none => answer [statusOk, 0, 0] (commitImage s)

/-- COMMIT. -/
def execCommit (s : State) : Result := .next (whenHigh commitRequest s)

/-- R8: the FTU at a LEAVE taken in a joined state: T is frozen. -/
def ftuAtLeave (f : Ftu) : Ftu :=
  { f with station := .detached, stall := 0, marker := none, holdoverCount := 0, discordCount := 0 }

/-- R42: the LIU at a LEAVE taken in a joined state: a frame on the line is drained. -/
def liuAtLeave (l : Liu) : Liu :=
  let left := { l with rx := .seeking, offer := none, muted := false, muteLeft := 0 }
  match l.tx with
  | .head | .body | .draining => { left with tx := .draining }
  | .off | .ready => { left with tx := .off, attempt := none }

/-- R98: a channel at a LEAVE taken in a joined state: as for HALT; it no longer samples. DESIGN CHOICE (log entry 31),
unsafe: a tap instant or a pin change of the present tick that no command has taken is dropped. -/
def channelAtLeave (ch : Channel) : Channel :=
  { halted ch with state := if ch.state = .disabled then .disabled else .idle,
                   sampled := none, tapDue := false, sampleOpen := false }

/-- R159, R160: Publishing at a LEAVE taken in a joined state. -/
def pubAtLeave (p : Pub) : Pub := { p with queue := [], markSlot := none, rollSlot := none }

/-- R168: every block at a LEAVE taken in a joined state. DESIGN CHOICE (log entry 31), unsafe: a boundary, an unmute, a
mid-epoch instant or a listen end that the tick has reached and no command has taken is dropped, though T has moved. -/
def leaveFabric (s : State) : State :=
  { s with
    ftu := ftuAtLeave s.ftu
    liu := liuAtLeave s.liu
    roster := []
    table := List.replicate Config.triggerEntries .cleared
    schedule := []
    channels := Vector.ofFn fun c => channelAtLeave (channelOf s c)
    pub := pubAtLeave s.pub
    due := .none }

/-- R168: LEAVE is answered OK in any state; in DETACHED it has no effect. Actions that left the list at the present
tick are applied first, since a release is taken whole (R84, R91). -/
def leaveRequest (s : State) : State := answer [statusOk] (if joined s then leaveFabric (releaseDue s) else s)

/-- LEAVE. -/
def execLeave (s : State) : Result := .next (whenHigh leaveRequest s)

/-! ### POST (R151, R169) -/

/-- R169: the state test, then the argument checks, then the hand-over to Publishing at the present T. A release that is
still due comes first (R84, R89; log entry 5). -/
def postRequest (tag : Half) (flags : Byte) (value : Half) (s : State) : State :=
  if !joined s then answer [statusNotJoined] s
  else if 1023 < tag.toNat ∨ 3 < flags.toNat then answer [statusBadRequest] s
  else answer [statusOk] (publishLocal none (tag.setWidth 10) s.ftu.time
    (if postHasValue flags then some value else none) (postPublishes flags) (releaseDue s))

/-- POST. -/
def execPost (tag : Half) (flags : Byte) (value : Half) (s : State) : Result :=
  .next (whenHigh (postRequest tag flags value) s)

/-! ### Reads (R92, R114, R171, R174, R175) -/

/-- R171: READ_RECORD returns the oldest record, which stays until CS rises, or EMPTY. -/
def readRecord (s : State) : State :=
  match s.log.records with
  | [] => answer [statusEmpty] s
  | r :: _ => { s with port := { s.port with response := statusOk :: recordBytes r, readOut := true } }

/-- READ_RECORD. -/
def execReadRecord (s : State) : Result := .next (whenHigh readRecord s)

/-- R174: READ_STATUS shows everything at one instant, a release that is still due having come before it (R84, R93; log
entry 5). -/
def readStatus (s : State) : State := answer (statusOk :: statusBytes s) s

/-- READ_STATUS (R174). -/
def execReadStatus (s : State) : Result := .next (whenHigh (fun s => readStatus (releaseDue s)) s)

/-- A read of one item of a list by index: out of range is BAD_REQUEST (R92, R162). -/
def readIndexed {α : Type} (items : List α) (bytes : α → List Byte) (index : Byte) (s : State) : State :=
  match items[index.toNat]? with
  | some x => answer (statusOk :: bytes x) s
  | none => answer [statusBadRequest] s

/-- READ_ROSTER (R175). -/
def execReadRoster (index : Byte) (s : State) : Result :=
  .next (whenHigh (fun s => readIndexed s.roster rosterBytes index s) s)

/-- R92: READ_SCHEDULE returns the entry at this list position. -/
def readSchedule (index : Byte) (s : State) : State := readIndexed s.schedule actionBytes index s

/-- READ_SCHEDULE (R92, R175): a release that is still due comes before the read, never around it (R84; log entry 5). -/
def execReadSchedule (index : Byte) (s : State) : Result :=
  .next (whenHigh (fun s => readSchedule index (releaseDue s)) s)

/-- READ_CHANNEL (R114, R175): a channel number above 7 is BAD_REQUEST. -/
def execReadChannel (channel : Byte) (s : State) : Result :=
  .next (whenHigh (fun s => readIndexed s.channels.toList channelBytes channel s) s)

/-! ### What is not a request (R161, R162, R171) -/

/-- UNKNOWN_REQUEST (R162): BAD_REQUEST with no data. A code that is known is no unknown request (log entry 3). -/
def execUnknownRequest (code : Byte) (s : State) : Result :=
  .next (whenHigh (fun s => if requestCodes.contains code then s else answer [statusBadRequest] s) s)

/-- TRANSACTION_CUT_SHORT (R161). -/
def execTransactionCutShort (s : State) : Result := .next (whenHigh cutShort s)

/-- R171: the read record leaves the head; with a non-zero lost count a LOST record takes the freed place. -/
def removeRecord (s : State) : State :=
  let rest := s.log.records.tail
  let log : RecordLog :=
    if s.log.lost = 0 then { records := rest, lost := 0 }
    else { records := rest ++ [{ recordNow .lost s with value := some (s.log.lost.setWidth 32) }], lost := 0 }
  { s with log := log, port := { s.port with readOut := false } }

/-- RECORD_REMOVED (R171): CS rises after the 16 bytes of a READ_RECORD response. -/
def execRecordRemoved (s : State) : Result :=
  .next (if s.port.readOut ∧ s.log.records ≠ [] then removeRecord s else s)

/-! ### RESET (R176) -/

/-- START_UP_RESET (R176): every item at its start-up value while RESET is low. The waiting commands and the levels
that the outside drives on the pins are not the station's. -/
def execStartUpReset (s : State) : Result :=
  .next { State.reset with port := { response := [], readOut := false, resetLow := true },
                           pins := s.pins, pending := s.pending }

/-- RESET_RETURNS_HIGH (R176): the port takes requests again from the next falling CS. -/
def execResetReturnsHigh (s : State) : Result := .next { s with port := { s.port with resetLow := false } }

end Sys2Proof.Machine
end

