-- ==== Sys2Proof/Machine/Arrivals.lean ====
section
/-! DEFINITION. The meanings of the three arrivals (R9, R41, R52 to R54). -/

namespace Sys2Proof.Machine

/-- MARK_ARRIVAL (R9, R41): a peer's MARK goes to the FTU and to the roster; one with the own id is only counted (R53). -/
def execMarkArrival (origin : StationId) (mark : MarkFields) (order : MarkOrder) (s : State) : Result :=
  .next (deliver ⟨origin, .mark mark⟩ ownIdFrame (takeMark origin mark order) s)

/-- EVENT_ARRIVAL (R41, R54); one with the own id is only counted (R53). -/
def execEventArrival (origin : StationId) (event : EventFields) (s : State) : Result :=
  .next (deliver ⟨origin, .event event⟩ ownIdFrame (takeEvent origin event) s)

/-- R53: a ROLL with the own id is counted and writes ID_CLASH with the own id as origin. -/
def ownIdRoll (s : State) : State :=
  writeRecord { recordNow .idClash s with origin := some s.params.id } (ownIdFrame s)

/-- ROLL_ARRIVAL (R41, R52). -/
def execRollArrival (origin : StationId) (roll : RollFields) (s : State) : Result :=
  .next (deliver ⟨origin, .roll roll⟩ ownIdRoll (takeRoll origin roll) s)

end Sys2Proof.Machine
end

