-- ==== Sys2Proof/Machine/ChannelEvents.lean ====
section
/-! DEFINITION. The meanings of the channel events: starts, underflows, qualification, pin changes (R102, R111, R118, R122,
R126, R129, R131, R145), and the counts of the same rows (R99). An event whose condition does not hold changes nothing
(log entry 3).
-/

namespace Sys2Proof.Machine

/-- Channel c's tap instant of the present tick is still to be taken, in this mode and state (R99). -/
def tapDueIn (s : State) (c : ChannelId) (mode : Mode) (state : ChannelState) : Bool :=
  (channelOf s c).tapDue && (channelOf s c).cfg.mode == mode && (channelOf s c).state == state

/-- R99: channel c, in this mode and state, takes its tap instant: the underflow at counter 0, and otherwise the count
that FABRIC_TICK left or an action has made of it (R121, R124; log entry 32). -/
def tapEventIn (c : ChannelId) (mode : Mode) (state : ChannelState) (s : State) : State × Option Occurrence :=
  if tapDueIn s c mode state then tapEvent c s else (s, none)

/-- The row of the tap instant in this mode and state, beside the release of its tick (R84, R89; log entry 5). -/
def takeTapIn (c : ChannelId) (mode : Mode) (state : ChannelState) (s : State) : State :=
  takeEventOf c (tapEventIn c mode state) s

/-- R102, R135: a channel in STARTING starts at its tap instant, and one in COUNTING takes the count that is left. -/
def startEvent (c : ChannelId) (s : State) : State × Option Occurrence :=
  if (channelOf s c).tapDue ∧ ((channelOf s c).state = .starting ∨ (channelOf s c).state = .counting) then tapEvent c s
  else (s, none)

/-- START (R101, R102): a channel in STARTING at a tap instant of its tap. In COUNTING, the count that FABRIC_TICK left
(R135; log entry 32). -/
def execStart (c : ChannelId) (s : State) : Result := .next (takeEventOf c (startEvent c) s)

/-- ONE_SHOT_UNDERFLOW (R118). -/
def execOneShotUnderflow (c : ChannelId) (s : State) : Result := .next (takeTapIn c .oneShot .active s)

/-- LEAD_UNDERFLOW (R122). -/
def execLeadUnderflow (c : ChannelId) (s : State) : Result := .next (takeTapIn c .delayed .lead s)

/-- DELAYED_ACTIVE_UNDERFLOW (R122). -/
def execDelayedActiveUnderflow (c : ChannelId) (s : State) : Result := .next (takeTapIn c .delayed .active s)

/-- REPEAT_UNDERFLOW (R126). -/
def execRepeatUnderflow (c : ChannelId) (s : State) : Result := .next (takeTapIn c .repeating .running s)

/-- PHASE_A_UNDERFLOW (R129). -/
def execPhaseAUnderflow (c : ChannelId) (s : State) : Result := .next (takeTapIn c .paired .phaseA s)

/-- PERIOD_BOUNDARY (R131). -/
def execPeriodBoundary (c : ChannelId) (s : State) : Result := .next (takeTapIn c .paired .phaseB s)

/-- QUALIFIED (R145). -/
def execQualified (c : ChannelId) (s : State) : Result := .next (takeTapIn c .qualify .qualifying s)

/-- PIN_CHANGE (R111): the pin is driven to this level, and an input channel takes it as a change if the present local
tick's sample shows one; otherwise the next local tick's sample sees the level. -/
def execPinChange (c : ChannelId) (level : Bool) (s : State) : Result := .next (takeEventOf c (pinEvent c level) s)

end Sys2Proof.Machine
end

