-- ==== Sys2Proof/Machine/LineEvents.lean ====
section
/-! DEFINITION. The meanings of the line events at the LIU (R31 to R34, R38, R39, R42). An event whose condition does
not hold changes nothing (log entry 3).
-/

namespace Sys2Proof.Machine

/-- R38, R31: the count has reached 10 and the line becomes idle; the receiver waits for a start bit and the LIU asks the
arbiter for an offer. -/
def lineBecomesIdle (s : State) : State :=
  askArbiter (setLiu (fun l => { l with rx := .waiting, recessive := Config.idleRun, offer := none }) s)

/-- LINE_IDLE (R38): the bit time in which the count reaches 10 (`commandsOfReceiving`; commanded without bit times it stands
for that one, log entry 9), in a joined state, in SEEKING, with no frame of the station's own on the line. -/
def execLineIdle (s : State) : Result :=
  .next (if joined s ∧ s.liu.rx = .seeking ∧ s.liu.tx = .ready then lineBecomesIdle s else s)

/-- START_BIT (R31, R38): a frame of another station begins, its dominant bit resets the count, and an offer whose attempt
has not begun is abandoned. -/
def execStartBit (s : State) : Result :=
  .next (if joined s ∧ s.liu.rx = .waiting then
    setLiu (fun l => { l with rx := .taking, recessive := 0, offer := none }) s else s)

/-- TRANSMISSION_ATTEMPT (R31). -/
def execTransmissionAttempt (s : State) : Result := .next (if canAttempt s then attemptOffer s else s)

/-- WON_ARBITRATION (R32): a draining frame wins its head too, and goes on draining. -/
def execWonArbitration (s : State) : Result :=
  .next (match s.liu.attempt with
    | none => s
    | some a =>
      if s.liu.tx = .head then setLiu (fun l => { l with tx := .body, attempt := some { a with won := true } }) s
      else if s.liu.tx = .draining then setLiu (fun l => { l with attempt := some { a with won := true } }) s
      else s)

/-- LOST_ARBITRATION (R32): LOST changes no item; a draining frame ends (R42). -/
def execLostArbitration (position : Nat) (s : State) : Result :=
  .next (match s.liu.attempt with
    | none => s
    | some a =>
      if canLoseAt a.frame position && !a.won then
        if s.liu.tx = .head then attemptOver s else if s.liu.tx = .draining then drainingOver s else s
      else s)

/-- BIT_FAULT (R33): FAULTED, with mute at the eighth fault of a pending item; in DRAINING only the counter (R42). The
receiver stays in TAKING, after a fault at position 0 by the model's choice (log entry 34). -/
def execBitFault (bit : Nat) (s : State) : Result :=
  .next (match s.liu.attempt with
    | none => s
    | some a =>
      if canFaultAt a.frame a.won bit then
        match s.liu.tx with
        | .head | .body => faultAttempt a s
        | .draining => count (fun c => { c with bitFaults := satInc c.bitFaults }) (drainingOver s)
        | .off | .ready => s
      else s)

/-- COMPLETED (R34): an attempt in BODY; the frame's end is also its end at the receiver (R38). -/
def execCompleted (s : State) : Result :=
  .next (match s.liu.attempt with
    | none => s
    | some a => if s.liu.tx = .body then completeAttempt a (frameEnds (attemptOver s)) else s)

/-- DRAINING_END (R42, R43). -/
def execDrainingEnd (s : State) : Result := .next (if s.liu.tx = .draining then drainingOver s else s)

/-- FRAME_DISCARDED (R39): the receiver over the levels read after the start bit. A frame that is not over, or that is
good, is not discarded. -/
def execFrameDiscarded (bits : List LineBit) (s : State) : Result :=
  .next (if receiving s then
    match receive bits with
    | .malformed => discardMalformed s
    | .checkError => discardChecked s
    | .good _ | .unfinished => s
  else s)

end Sys2Proof.Machine
end

