-- ==== Sys2Proof/Machine/Ticks.lean ====
section
/-! DEFINITION. The meanings of the local ticks (R1, R4, R5, R16, R84, R99, R111) and of what a tick reaches:
BOUNDARY_REACHED, LINE_UNMUTE, MID_EPOCH_INSTANT, LISTEN_END, RELEASE.
-/

namespace Sys2Proof.Machine

/-- R1, R4, R5, R84, R99, R111: a fabric tick advances T by one. What the new T reaches is due: a boundary at the FTU
and the LIU, a mid-epoch instant, and the actions that leave the list. Each channel takes its count and sample. -/
def fabricTick (order : TickOrder) (s : State) : State :=
  let t := s.ftu.time + 1
  leaveList { s with
    ftu := { s.ftu with time := t }
    channels := Vector.ofFn fun c => tickChannel t (order.late.getLsbD c.val) (pinLevel s c) (channelOf s c)
    due := { s.due with ftuBoundary := isBoundary s.params.k t, liuBoundary := isBoundary s.params.k t,
                        midEpoch := isMidEpoch s.params.k t, moments := order.moments } }

/-- FABRIC_TICK (R1): a local tick in a joined state with stall remainder 0. What the last instant has left is taken
first (log entry 4). -/
def execFabricTick (order : TickOrder) (s : State) : Result :=
  .next (if joined s ∧ s.ftu.stall = 0 then fabricTick order (settle s) else s)

/-- R1, R16, R111: a swallowed tick keeps T and decreases the stall remainder; input channels sample. -/
def swallowedTick (s : State) : State :=
  { s with
    ftu := { s.ftu with stall := s.ftu.stall - 1 }
    channels := Vector.ofFn fun c => swallowChannel s.ftu.time (pinLevel s c) (channelOf s c) }

/-- SWALLOWED_TICK (R1, R16): a local tick in a joined state with a positive stall remainder. -/
def execSwallowedTick (s : State) : Result :=
  .next (if joined s ∧ s.ftu.stall ≠ 0 then swallowedTick (settle s) else s)

/-- BOUNDARY_REACHED (R22, R37). -/
def execBoundaryReached (s : State) : Result := .next (takeBoundary s)

/-- LINE_UNMUTE (R37). -/
def execLineUnmute (s : State) : Result := .next (takeUnmute s)

/-- MID_EPOCH_INSTANT (R20, R48, R50). -/
def execMidEpochInstant (rosterFirst : Bool) (s : State) : Result := .next (takeMidEpoch rosterFirst s)

/-- LISTEN_END (R13). -/
def execListenEnd (s : State) : Result := .next (takeListenEnd s)

/-- RELEASE (R84, R134). -/
def execRelease (s : State) : Result := .next (releaseAmong s)

end Sys2Proof.Machine
end

