-- ==== Sys2Proof/Machine/Dispatch.lean ====
section
/-! DEFINITION. exec: one arm for each row of the table, each one call of its meaning. -/

namespace Sys2Proof.Machine
open Sys2Proof

def exec (i : Instr) (s : State) : Host.Outcome State Fault Refusal :=
  match i with
  | .writeImage offset length data => Sys2Proof.Machine.execWriteImage offset length data s
  | .readImage offset length => Sys2Proof.Machine.execReadImage offset length s
  | .commit => Sys2Proof.Machine.execCommit s
  | .leave => Sys2Proof.Machine.execLeave s
  | .post tag flags value => Sys2Proof.Machine.execPost tag flags value s
  | .readRecord => Sys2Proof.Machine.execReadRecord s
  | .readStatus => Sys2Proof.Machine.execReadStatus s
  | .readRoster index => Sys2Proof.Machine.execReadRoster index s
  | .readSchedule index => Sys2Proof.Machine.execReadSchedule index s
  | .readChannel channel => Sys2Proof.Machine.execReadChannel channel s
  | .unknownRequest code => Sys2Proof.Machine.execUnknownRequest code s
  | .transactionCutShort => Sys2Proof.Machine.execTransactionCutShort s
  | .recordRemoved => Sys2Proof.Machine.execRecordRemoved s
  | .startUpReset => Sys2Proof.Machine.execStartUpReset s
  | .fabricTick order => Sys2Proof.Machine.execFabricTick order s
  | .swallowedTick => Sys2Proof.Machine.execSwallowedTick s
  | .boundaryReached => Sys2Proof.Machine.execBoundaryReached s
  | .lineUnmute => Sys2Proof.Machine.execLineUnmute s
  | .midEpochInstant rosterFirst => Sys2Proof.Machine.execMidEpochInstant rosterFirst s
  | .listenEnd => Sys2Proof.Machine.execListenEnd s
  | .release => Sys2Proof.Machine.execRelease s
  | .lineIdle => Sys2Proof.Machine.execLineIdle s
  | .transmissionAttempt => Sys2Proof.Machine.execTransmissionAttempt s
  | .lostArbitration position => Sys2Proof.Machine.execLostArbitration position s
  | .bitFault bit => Sys2Proof.Machine.execBitFault bit s
  | .completed => Sys2Proof.Machine.execCompleted s
  | .drainingEnd => Sys2Proof.Machine.execDrainingEnd s
  | .frameDiscarded bits => Sys2Proof.Machine.execFrameDiscarded bits s
  | .markArrival origin mark order => Sys2Proof.Machine.execMarkArrival origin mark order s
  | .eventArrival origin event => Sys2Proof.Machine.execEventArrival origin event s
  | .rollArrival origin roll => Sys2Proof.Machine.execRollArrival origin roll s
  | .start channel => Sys2Proof.Machine.execStart channel s
  | .oneShotUnderflow channel => Sys2Proof.Machine.execOneShotUnderflow channel s
  | .leadUnderflow channel => Sys2Proof.Machine.execLeadUnderflow channel s
  | .delayedActiveUnderflow channel => Sys2Proof.Machine.execDelayedActiveUnderflow channel s
  | .repeatUnderflow channel => Sys2Proof.Machine.execRepeatUnderflow channel s
  | .phaseAUnderflow channel => Sys2Proof.Machine.execPhaseAUnderflow channel s
  | .periodBoundary channel => Sys2Proof.Machine.execPeriodBoundary channel s
  | .qualified channel => Sys2Proof.Machine.execQualified channel s
  | .pinChange channel level => Sys2Proof.Machine.execPinChange channel level s
  | .startBit => Sys2Proof.Machine.execStartBit s
  | .wonArbitration => Sys2Proof.Machine.execWonArbitration s
  | .resetReturnsHigh => Sys2Proof.Machine.execResetReturnsHigh s

end Sys2Proof.Machine
end

