-- ==== Sys2Proof/Machine/BitTimes.lean ====
section
/-! DEFINITION. The fabric line bit time by bit time (R26, R31 to R33, R38): the receiver's count of recessive bit times, and
which line events of the table one bit time makes at this station, in their order. The table has no row for a bit time (log
entry 9), so the events are its commands and a bit time is the run of them.
-/

namespace Sys2Proof.Machine

/-- One bit time: the level read on the line. `early` says that a dominant level is another station's start bit, read
before this station drives its own (R31), and `order` is that of a MARK that arrives with this bit (log entry 7). -/
structure BitTime where
  level : LineBit
  early : Bool
  order : MarkOrder
  deriving DecidableEq, Repr

/-- What the LIU has of the frame on the line: the levels that the receiver has taken since the start bit (R38), and how
many bits of its own frame the transmitter has driven (R32, R33). -/
structure FrameBits where
  taken : List LineBit
  sent : Nat
  deriving DecidableEq, Repr

/-- R38: a dominant bit resets the count. A recessive bit time is counted in SEEKING and in WAITING, and not in TAKING, where
the last frame has not ended. The count stands at 10 once it is reached (log entry 9). -/
def countBit (b : LineBit) (l : Liu) : Liu :=
  if b then
    match l.rx with
    | .seeking | .waiting => { l with recessive := min (l.recessive + 1) Config.idleRun }
    | .taking => l
  else { l with recessive := 0 }

/-- The state that a command of the table leaves. -/
def runCommand (s : State) (c : Instr) : State :=
  match exec c s with
  | .next t => t
  | .fault _ | .refused _ => s

/-- R31: the attempt of an offered item begins at this bit time, unless another station's start bit is read first. -/
def attemptBegins (i : BitTime) (s : State) : Bool := canAttempt s && s.liu.offer.isSome && !(i.early && !i.level)

/-- R32, R33, R42: what the transmitter finds at bit n of its own frame, where it reads this level. -/
def commandsOfSending (n : Nat) (b : LineBit) (s : State) : List Instr :=
  match s.liu.attempt with
  | none => []
  | some a =>
    match (lineBits a.frame)[n]? with
    | none => []
    | some driven =>
      if driven = b then
        if a.won = false ∧ n = Config.headLast then [.wonArbitration]
        else if n + 1 = (lineBits a.frame).length then [if s.liu.tx = .draining then .drainingEnd else .completed]
        else []
      else if driven && !a.won then [.lostArbitration n]
      else [.bitFault n]

/-- R38, R39, R41: what the levels taken since a start bit have come to: an arrival, a discarded frame, or nothing yet. -/
def commandsOfTaken (order : MarkOrder) (taken : List LineBit) : List Instr :=
  match receive taken with
  | .good ⟨origin, .mark m⟩ => [.markArrival origin m order]
  | .good ⟨origin, .event e⟩ => [.eventArrival origin e]
  | .good ⟨origin, .roll r⟩ => [.rollArrival origin r]
  | .malformed | .checkError => [.frameDiscarded taken]
  | .unfinished => []

/-- R38: what the receiver makes of this bit time, begun in state `old` and with the transmitter's part taken in `s`: the line
idle where the count reaches 10 in SEEKING, a start bit in WAITING, and the bits of a frame in TAKING. -/
def commandsOfReceiving (i : BitTime) (taken : List LineBit) (old s : State) : List Instr :=
  match old.liu.rx with
  | .seeking => if joined s ∧ i.level = true ∧ old.liu.recessive + 1 = Config.idleRun then [.lineIdle] else []
  | .waiting => if s.liu.rx = .waiting ∧ i.level = false then [.startBit] else []
  | .taking => if receiving s then commandsOfTaken i.order taken else []

/-- One bit time at the LIU: the count (R38), the beginning of an attempt (R31), the bit driven and read back (R32, R33) and
the bit received (R38). It answers the commands it is made of, and what they leave. -/
def bitTime (i : BitTime) (x : State × FrameBits) : List Instr × State × FrameBits :=
  let counted := setLiu (countBit i.level) x.1
  let starting := if attemptBegins i counted then [Instr.transmissionAttempt] else []
  let begun := starting.foldl runCommand counted
  let sent := if attemptBegins i counted then 0 else x.2.sent
  let sending := commandsOfSending sent i.level begun
  let read := sending.foldl runCommand begun
  let taken := if x.1.liu.rx = .taking then x.2.taken ++ [i.level] else []
  let received := commandsOfReceiving i taken x.1 read
  (starting ++ sending ++ received, received.foldl runCommand read, { taken := taken, sent := sent + 1 })

/-- The bit times of a run, and the commands that they are made of, in order. -/
def bitTimes : List BitTime → State × FrameBits → List Instr × State × FrameBits
  | [], x => ([], x)
  | i :: rest, x =>
    let now := bitTime i x
    let later := bitTimes rest now.2
    (now.1 ++ later.1, later.2)

end Sys2Proof.Machine
end

