-- ==== Sys2Proof/Machine/Sdo.lean ====
section
/-! DEFINITION. The SDO output over a transaction (R161, chapter 10.7). The commands take a transaction whole (log entry
17); this file says what its bytes look like on the wire, however early CS rises.
-/

namespace Sys2Proof.Machine

/-- What the station does at SDO (R161). -/
inductive SdoDrive where
  | highImpedance | shifts (b : Byte)
  deriving DecidableEq, Repr

/-- R161: byte n shifted out since CS fell, when the request is taken with byte number `taken`: 0x00 until then, the
response after it, and 0x00 after the response. -/
def sdoByte (taken : Nat) (response : List Byte) (n : Nat) : Byte :=
  if n < taken then 0 else (response[n - taken]?).getD 0

/-- The response that the station gives to a request, status byte first (R161). -/
def responseOf (c : Instr) (s : State) : List Byte :=
  match exec c s with
  | .next t => t.port.response
  | .fault _ | .refused _ => []

/-- R161: SDO at byte n of the transaction of request `c`, taken in state `s`, while CS is low, and when it is high. -/
def sdoAt (c : Instr) (s : State) (csLow : Bool) (n : Nat) : SdoDrive :=
  if csLow then .shifts (sdoByte ((transactionBytes c).getD []).length (responseOf c s) n) else .highImpedance

/-- R161: what the controller has read when CS rises after `clocked` bytes: the rest of the response is lost, and the
request keeps its effect. -/
def shiftedOut (c : Instr) (s : State) (clocked : Nat) : List Byte :=
  (List.range clocked).map (sdoByte ((transactionBytes c).getD []).length (responseOf c s))

/-- R171: CS rises after the last of the 16 bytes of a READ_RECORD response, behind the request and the status byte:
RECORD_REMOVED then follows, and with fewer bytes it does not. -/
def recordShiftedOut (clocked : Nat) : Bool := decide (18 ≤ clocked)

end Sys2Proof.Machine
end

