-- ==== Sys2Proof/Machine/Spi.lean ====
section
/-! DEFINITION. The station port bit by bit (R161): SDI, SDO, SCK and CS. The commands take a transaction whole (log entry
17); this file says which commands the levels of the pins make, each at its instant, and what SDO shows meanwhile.
-/

namespace Sys2Proof.Machine

/-! ### The bits of one transaction -/

/-- R161: the request that the bits shifted in since CS fell ask for. It is taken with the last bit of its last byte; with
fewer bits, the last byte incomplete among them, the transaction is cut short. -/
def requestOfBits (bits : List Bool) : Instr := requestOf (bytesOfBits bits)

/-- R161: the level of SDO at bit n since CS fell, most significant bit of each byte first; none is high-impedance. -/
def sdoBitAt (c : Instr) (s : State) (csLow : Bool) (n : Nat) : Option Bool :=
  match sdoAt c s csLow (n / 8) with
  | .highImpedance => none
  | .shifts b => some (b.getMsbD (n % 8))

/-- R161: the bits that the controller has read when CS rises after `clocks` rising edges of SCK, within a byte too. -/
def bitsShiftedOut (c : Instr) (s : State) (clocks : Nat) : List Bool :=
  (List.range clocks).filterMap (sdoBitAt c s true)

/-! ### The pins, in SPI mode 0 -/

/-- The levels of the port's input pins, and of RESET; true is high. -/
structure PortPins where
  cs : Bool
  sck : Bool
  sdi : Bool
  reset : Bool
  deriving DecidableEq, Repr

/-- What the port has of the transaction in progress: the bits sampled at SDI and the bit that SDO shows. -/
structure Shifter where
  selected : Bool
  sampled : List Bool
  shown : Nat
  deriving DecidableEq, Repr

/-- No transaction in progress. -/
def noShifter : Shifter := { selected := false, sampled := [], shown := 0 }

/-- R161, R176: the pins go from one set of levels to the next. CS high ends a transaction, and so does RESET low; a
falling CS begins one. In one, a rising SCK samples SDI and a falling SCK changes SDO. SCK is ignored outside one, so also
after a RESET until CS next falls. DESIGN CHOICE (log entry 17), unsafe: an SCK that changes together with CS or a falling
RESET is no edge, and a CS that falls in the change in which RESET returns high is the next falling CS of R176. -/
def shifterAfter (before now : PortPins) (x : Shifter) : Shifter :=
  if now.cs || !now.reset then noShifter
  else if before.cs then { selected := true, sampled := [], shown := 0 }
  else if !x.selected then x
  else if !before.sck && now.sck then { x with sampled := x.sampled ++ [now.sdi] }
  else if before.sck && !now.sck then { x with shown := x.shown + 1 }
  else x

/-- R161: a request is taken at the instant its last byte completes, so where `old` were the bits before and ask for
none. -/
def commandsTaken (old new : List Bool) : List Instr :=
  if requestOfBits old = .transactionCutShort ∧ requestOfBits new ≠ .transactionCutShort then [requestOfBits new] else []

/-- R161, R171: what the rise of CS is after these bits: the end of a transaction cut short, RECORD_REMOVED after the last
bit of a READ_RECORD response, or no command. -/
def commandsAtRise (bits : List Bool) : List Instr :=
  if requestOfBits bits = .transactionCutShort then [.transactionCutShort]
  else if requestOfBits bits = .readRecord ∧ recordShiftedOut (bits.length / 8) then [.recordRemoved]
  else []

/-- R161, R176: the commands that one change of the pins makes. A transaction that RESET ends is ignored. -/
def commandsAt (before now : PortPins) (x : Shifter) : List Instr :=
  commandsTaken x.sampled (shifterAfter before now x).sampled ++
    if x.selected && now.cs && now.reset then commandsAtRise x.sampled else []

/-- R161: the commands that the levels of the pins make, in order. -/
def commandsOfPins (before : PortPins) (x : Shifter) : List PortPins → List Instr
  | [] => []
  | now :: rest => commandsAt before now x ++ commandsOfPins now (shifterAfter before now x) rest

/-- R161: the level of SDO in a transaction whose request is, or is to be, taken in state s; none is high-impedance.
DESIGN CHOICE (log entry 17), unsafe: it is high-impedance too while RESET is low, and while CS is still low after it. -/
def sdoOfPins (x : Shifter) (s : State) : Option Bool := sdoBitAt (requestOfBits x.sampled) s x.selected x.shown

end Sys2Proof.Machine
end

