-- ==== Sys2Proof/Safety.lean ====
section
/-! DEFINITION. What a good state of the station is: the properties that the rules say always hold, each as a predicate
of the state that can be decided. No command can stop the station (`Machine.Fault` is empty), so a safe run is one
whose states keep these.
-/

namespace Sys2Proof.Machine

/-- R170: at most 64 records, and whenever the lost count is not 0 the record queue is full. -/
abbrev recordsOk (s : State) : Prop :=
  s.log.records.length ≤ Config.recordCapacity ∧
    (s.log.lost ≠ 0 → s.log.records.length = Config.recordCapacity)

/-- The image memory is in its canonical form: one list of cells for each content (R163). -/
abbrev imageOk (s : State) : Prop := memoryWf s.image = true

/-- R6, R19, R21: the holdover count is 0 except in HOLDOVER; the discord count is 1 or 2 in DISCORD and 0 elsewhere. -/
abbrev countsOk (s : State) : Prop :=
  (s.ftu.holdoverCount ≠ 0 ↔ s.ftu.station = .holdover) ∧ (s.ftu.discordCount ≠ 0 ↔ s.ftu.station = .discord) ∧
    s.ftu.discordCount.toNat ≤ 2

/-- R16: the stall remainder is at most W, and it is 0 in every station state but SYNCED. A stalled T has left no
mid-epoch instant to be judged. -/
abbrev stallOk (s : State) : Prop :=
  s.ftu.stall.toNat ≤ s.params.window.toNat ∧
    (s.ftu.stall ≠ 0 → s.ftu.station = .synced ∧ s.due.midEpoch = false)

/-- R44: at most 32 entries in ascending order of origin, none twice, each origin 1 to 62 and none the own id. -/
abbrev rosterOk (s : State) : Prop :=
  s.roster.length ≤ Config.rosterCapacity ∧ s.roster.Pairwise (fun a b => a.origin.toNat < b.origin.toNat) ∧
    ∀ e ∈ s.roster, validOrigin e.origin = true ∧ e.origin ≠ s.params.id

/-- R73: at most 32 actions, every due time ahead of T, in order of their distance from T. -/
abbrev scheduleOk (s : State) : Prop :=
  s.schedule.length ≤ Config.scheduleCapacity ∧
    (∀ a ∈ s.schedule, 1 ≤ distance s.ftu.time a ∧ distance s.ftu.time a < 2 ^ 31) ∧
    s.schedule.Pairwise (fun a b => distance s.ftu.time a ≤ distance s.ftu.time b)

/-- R152: at most 16 entries, each with fewer copies sent than configured. -/
abbrev queueOk (s : State) : Prop :=
  s.pub.queue.length ≤ Config.queueCapacity ∧ 1 ≤ s.params.copies.toNat ∧ s.params.copies.toNat ≤ 3 ∧
    ∀ e ∈ s.pub.queue, e.copiesSent < s.params.copies.toNat

/-- R22, R35, R36, R158: a MARK request is pending only while the station is SYNCED or HOLDOVER and not muted; while
it is muted both slots are empty, 1 to 16 boundaries remain and no attempt is on the line. An attempt is on the line
only of a joined station (R31, R42). -/
abbrev muteOk (s : State) : Prop :=
  (s.pub.markSlot ≠ none → lockedOn s = true ∧ s.liu.muted = false) ∧
    (s.liu.muted = true → s.pub.rollSlot = none ∧ 1 ≤ s.liu.muteLeft.toNat ∧ s.liu.muteLeft.toNat ≤ 16 ∧
      joined s = true ∧ s.liu.tx = .ready) ∧
    (s.liu.muted = false → s.liu.muteLeft = 0) ∧ (s.liu.tx = .head ∨ s.liu.tx = .body → joined s = true)

/-- R152, R156: an item's fault attempts are below 8, but for the queue entry that keeps 8 while the station is muted. -/
abbrev faultsOk (s : State) : Prop :=
  s.pub.markSlot.all (fun r => decide (r.faults < Config.muteFaults)) = true ∧
    s.pub.rollSlot.all (fun r => decide (r.faults < Config.muteFaults)) = true ∧
    ∀ e ∈ s.pub.queue, e.faults ≤ Config.muteFaults ∧ (e.faults = Config.muteFaults → s.liu.muted = true)

/-- Nothing is left of the present instant: no boundary, mid-epoch instant, release, listen end, tap instant or pin
change waits to be taken (R4, R13, R84, R99, R111; log entry 4). -/
abbrev settled (s : State) : Prop :=
  s.due = .none ∧ listenEndDue s = false ∧ ∀ c : ChannelId, (channelOf s c).tapDue = false ∧ changeDue s c = false

/-- The states that R97 gives each mode. -/
def stateSuits : Mode → ChannelState → Bool
  | .unused, .disabled => true
  | .oneShot, .idle | .oneShot, .starting | .oneShot, .active => true
  | .delayed, .idle | .delayed, .starting | .delayed, .lead | .delayed, .active => true
  | .repeating, .idle | .repeating, .starting | .repeating, .running => true
  | .paired, .idle | .paired, .starting | .paired, .phaseA | .paired, .phaseB => true
  | .captureFree, .idle | .captureFree, .starting | .captureFree, .counting => true
  | .captureClear, .idle | .captureClear, .starting | .captureClear, .counting => true
  | .qualify, .idle | .qualify, .starting | .qualify, .watching | .qualify, .qualifying | .qualify, .held => true
  | _, _ => false

/-- R97: the output level that each state asks for; a RUNNING train shows either. -/
def outputSuits (ch : Channel) : Bool :=
  match ch.state with
  | .active | .phaseA => ch.output
  | .running => true
  | .disabled | .idle | .starting | .lead | .phaseB | .counting | .watching | .qualifying | .held => !ch.output

/-- R97, R108, R130: a channel is in a state of its mode at that state's output level; it holds a correction only
in STARTING of a mode that takes CORRECT, and staged values and the ready flag only in PHASE_A and PHASE_B. -/
abbrev channelOk (ch : Channel) : Prop :=
  stateSuits ch.cfg.mode ch.state = true ∧ outputSuits ch = true ∧
    (ch.held ≠ none → ch.state = .starting ∧ (ch.cfg.mode = .oneShot ∨ ch.cfg.mode = .delayed)) ∧
    (ch.stagedA ≠ none ∨ ch.stagedB ≠ none ∨ ch.pairReady = true → ch.state = .phaseA ∨ ch.state = .phaseB)

/-- Every channel is in a state of its mode (R97). -/
abbrev channelsOk (s : State) : Prop := ∀ c : ChannelId, channelOk (channelOf s c)

/-- A DETACHED station holds no peer, no pending action, no item for the line and no mute, has nothing due, its
channels are halted, and it drives nothing but a frame that it is draining (R42, R43, R45, R74, R98, R160). -/
abbrev detachedOk (s : State) : Prop :=
  s.ftu.station = .detached →
    s.roster = [] ∧ s.schedule = [] ∧ s.pub.queue = [] ∧ s.pub.markSlot = none ∧ s.pub.rollSlot = none ∧
      s.liu.muted = false ∧ s.due = .none ∧ (s.liu.tx = .off ∨ s.liu.tx = .draining) ∧
      ∀ c : ChannelId, (channelOf s c).tapDue = false ∧ (channelOf s c).sampled = none ∧
        ((channelOf s c).state = .idle ∨ (channelOf s c).state = .disabled)

end Sys2Proof.Machine
end

