-- ==== Sys2Proof/WellFormed.lean ====
section
/-! DEFINITION. Which commands can arise at all: the operands that the rules admit. The meanings stay total on the
others; what they do there follows from the same rules (a request that is cut short, a frame that is malformed).
-/

namespace Sys2Proof

/-- A command whose operands a rule admits: WRITE_IMAGE carries as many data bytes as its length says (R161),
an unknown request has an unknown code (R162), an arrival is a well-formed frame (R40), and arbitration is
lost at a position of the head (R32). -/
def Instr.wellFormed : Instr → Bool
  | .writeImage _ length data => decide (data.length = length.toNat)
  | .unknownRequest code => !Machine.requestCodes.contains code
  | .markArrival origin mark _ => Machine.frameWellFormed ⟨origin, .mark mark⟩
  | .eventArrival origin event => Machine.frameWellFormed ⟨origin, .event event⟩
  | .rollArrival origin roll => Machine.frameWellFormed ⟨origin, .roll roll⟩
  | .lostArbitration position => decide (1 ≤ position) && decide (position ≤ Config.headLast)
  | .readImage .. | .commit | .leave | .post .. | .readRecord | .readStatus | .readRoster _ | .readSchedule _
  | .readChannel _ | .transactionCutShort | .recordRemoved | .startUpReset | .fabricTick _ | .swallowedTick
  | .boundaryReached | .lineUnmute | .midEpochInstant _ | .listenEnd | .release | .lineIdle
  | .transmissionAttempt | .bitFault _ | .completed | .drainingEnd | .frameDiscarded _ | .start _
  | .oneShotUnderflow _ | .leadUnderflow _ | .delayedActiveUnderflow _ | .repeatUnderflow _
  | .phaseAUnderflow _ | .periodBoundary _ | .qualified _ | .pinChange .. | .startBit | .wonArbitration
  | .resetReturnsHigh => true

end Sys2Proof
end

