-- ==== Sys2Proof/Certificates/Slice0/Obligations.lean ====
section
/-! DEFINITION. The statements for the provers, in the order of OBLIGATIONS.json. Each docstring names the rules of spec/
that it rests on, and the log entry where it speaks of a choice of the model.
-/

section
open Sys2Proof Sys2Proof.Machine

/-! ### The queue of commands -/

/-- A step runs the command at the front of the queue on the state with the queue's rest. On an empty queue the block
idles, which is the model's choice (log entry 2). -/
def Obligations.StepRunsFrontCommand : Prop :=
  (∀ (c : Instr) (rest : List Instr) (s : State),
    step { s with pending := c :: rest } = exec c { s with pending := rest }) ∧
  ∀ s : State, s.pending = [] → step s = .next s

/-- No command stops the station: the spec gives it no trap and no halt. That no command, START_UP_RESET among them,
touches the queue of waiting commands is the model's choice (log entries 1 and 30). -/
def Obligations.ExecAnswersAndKeepsQueue : Prop :=
  ∀ (c : Instr) (s : State), ∃ t, exec c s = .next t ∧ t.pending = s.pending

/-! ### Invariants that every step keeps -/

/-- R163, R170: the record queue never holds more than 64 records, and whenever the lost count is not 0 it is full; the
image memory keeps its canonical form. -/
def Obligations.StepKeepsRecordsAndImage : Prop :=
  ∀ s t : State, step s = .next t → (recordsOk s → recordsOk t) ∧ (imageOk s → imageOk t)

/-- R16, R19, R21: the holdover and discord counts fit the station state, and the stall remainder is at most W and 0
outside SYNCED. -/
def Obligations.StepKeepsTimeItems : Prop :=
  ∀ s t : State, countsOk s ∧ stallOk s → step s = .next t → countsOk t ∧ stallOk t

/-- R44: the roster holds at most 32 entries in ascending order of origin, none of them the station's own. -/
def Obligations.StepKeepsRoster : Prop :=
  ∀ s t : State, rosterOk s → step s = .next t → rosterOk t

/-- R73: the schedule holds at most 32 actions, every one ahead of T, in order of distance. -/
def Obligations.StepKeepsSchedule : Prop :=
  ∀ s t : State, scheduleOk s → step s = .next t → scheduleOk t

/-- R22, R35, R36, R152, R156: the publish queue's bounds, when the slots may hold a request, what mute leaves of them,
and the bounds of the fault attempts. -/
def Obligations.StepKeepsPublishing : Prop :=
  ∀ s t : State, queueOk s ∧ muteOk s ∧ faultsOk s → step s = .next t → queueOk t ∧ muteOk t ∧ faultsOk t

/-- R97, R108, R130: every channel stays in a state of its mode, at the output level of that state, with held and
staged values only where they may be. -/
def Obligations.StepKeepsChannels : Prop :=
  ∀ s t : State, channelsOk s → step s = .next t → channelsOk t

/-- R42, R43, R45, R74, R98, R160: a DETACHED station stays empty and quiet. -/
def Obligations.StepKeepsDetachedQuiet : Prop :=
  ∀ s t : State, detachedOk s → step s = .next t → detachedOk t

/-- The state after reset, and the state that every START_UP_RESET leaves, have all the invariants (R6, R43, R45, R74,
R98, R160, R170, R176). -/
def Obligations.ResetHasInvariants : Prop :=
  (∀ s t : State, exec .startUpReset s = .next t →
    recordsOk t ∧ imageOk t ∧ countsOk t ∧ stallOk t ∧ rosterOk t ∧ scheduleOk t ∧ queueOk t ∧ muteOk t ∧ faultsOk t ∧
      channelsOk t ∧ detachedOk t) ∧
  recordsOk State.reset ∧ imageOk State.reset ∧ countsOk State.reset ∧ stallOk State.reset ∧ rosterOk State.reset ∧
    scheduleOk State.reset ∧ queueOk State.reset ∧ muteOk State.reset ∧ faultsOk State.reset ∧
    channelsOk State.reset ∧ detachedOk State.reset

/-! ### Whole-machine rules -/

/-- R6, R61, R95, R163: while the station is joined nothing but LEAVE and RESET changes the image, the working
parameters, the trigger table or a channel's configuration. -/
def Obligations.ConfigurationFixedWhileJoined : Prop :=
  ∀ (c : Instr) (s t : State), exec c s = .next t → joined s = true → c ≠ .leave → c ≠ .startUpReset →
    t.image = s.image ∧ t.params = s.params ∧ t.table = s.table ∧
      ∀ ch : ChannelId, (channelOf t ch).cfg = (channelOf s ch).cfg

/-- R1: fabric time changes only by a tick of one, by a forward step of at most W ticks, by a hard set to a mark's
reference in LISTENING or DISCORD, by COMMIT, or by RESET; in DETACHED only by the last two. -/
def Obligations.TimeMovesOnlyByItsMeans : Prop :=
  ∀ (c : Instr) (s t : State), exec c s = .next t →
    t.ftu.time = s.ftu.time ∨
    (joined s = true ∧ s.ftu.stall = 0 ∧ (∃ order, c = .fabricTick order) ∧ t.ftu.time = s.ftu.time + 1) ∨
    (joined s = true ∧ ∃ origin m order d, c = .markArrival origin m order ∧ 1 ≤ d ∧ d ≤ s.params.window.toNat ∧
      t.ftu.time = s.ftu.time + BitVec.ofNat 32 d) ∨
    ((s.ftu.station = .listening ∨ s.ftu.station = .discord) ∧ ∃ origin m order, c = .markArrival origin m order ∧
      t.ftu.time = markReference s.params m ∧ t.ftu.station = .synced ∧ t.ftu.stall = 0 ∧
      t.ftu.marker = some m.boundary ∧ t.schedule = []) ∨
    (joined s = false ∧ c = .commit ∧ t.ftu.time = 0) ∨
    (c = .startUpReset ∧ t.ftu.time = 0)

/-- R170, R171: every command but RECORD_REMOVED and RESET only adds records at the tail; a record is lost only when
the queue is full. -/
def Obligations.RecordsJoinAtTheTail : Prop :=
  ∀ (c : Instr) (s t : State), exec c s = .next t → c ≠ .recordRemoved → c ≠ .startUpReset →
    s.log.records <+: t.log.records ∧ s.log.lost.toNat ≤ t.log.lost.toNat ∧
      (t.log.records.length < Config.recordCapacity → t.log.lost = s.log.lost)

/-- R153: but for RESET, the own sequence counter moves only when an attempt of a head entry without a sequence begins:
that entry's frame is on the line from then on, the entry has the new value, with the restart flag if restart-pending
was set, and restart-pending is then clear. -/
def Obligations.SequenceAssignedAtAttempt : Prop :=
  ∀ (c : Instr) (s t : State), exec c s = .next t → c ≠ .startUpReset →
    t.pub.ownSequence = s.pub.ownSequence ∨
    (c = .transmissionAttempt ∧ t.pub.ownSequence = s.pub.ownSequence + 1 ∧ t.pub.restartPending = false ∧
      ∃ e es, s.pub.queue = e :: es ∧ e.sequence = none ∧
        t.pub.queue = { e with sequence := some (s.pub.ownSequence + 1), restart := s.pub.restartPending } :: es ∧
        t.liu.tx = .head ∧ ∃ a event, t.liu.attempt = some a ∧ a.item = .event ∧ a.frame.body = .event event ∧
          event.sequence = s.pub.ownSequence + 1 ∧ event.restart = s.pub.restartPending)

/-! ### Encodings: frames, the check, requests -/

/-- R27: the layout of the three classes, most significant bit first. R29: the fill rule: a dominant fill bit after seven
consecutive recessive bits that another bit follows, and nowhere else. R28 to R30, R40: a receiver that reads the levels
of a well-formed frame, fill bits among them, takes exactly that frame, whatever follows it on the line. -/
def Obligations.FrameRoundTrip : Prop :=
  (∀ (w : Nat) (x : BitVec w), (bitsOf x).length = w ∧ ∀ i, i < w → (bitsOf x)[i]? = some (x.getLsbD (w - 1 - i))) ∧
  (∀ (o : StationId) (m : MarkFields),
    contentBits ⟨o, .mark m⟩ = [false, false] ++ bitsOf o ++ bitsOf m.boundary ++ bitsOf m.age) ∧
  (∀ (o : StationId) (e : EventFields), e.value = none → contentBits ⟨o, .event e⟩ = [false, true] ++ bitsOf o ++
    [e.timed, false, e.restart] ++ bitsOf e.repeatIndex ++ bitsOf e.sequence ++ bitsOf e.tag ++ bitsOf e.occurrence) ∧
  (∀ (o : StationId) (e : EventFields) (v : Half), e.value = some v →
    contentBits ⟨o, .event e⟩ = [false, true] ++ bitsOf o ++ [e.timed, true, e.restart] ++ bitsOf e.repeatIndex ++
      bitsOf e.sequence ++ bitsOf e.tag ++ bitsOf e.occurrence ++ bitsOf v) ∧
  (∀ (o : StationId) (r : RollFields), contentBits ⟨o, .roll r⟩ = [true, false] ++ bitsOf o ++
    bitsOf r.syncState ++ bitsOf r.rosterSize ++ bitsOf r.occupancy) ∧
  (∀ f : Frame, frameBits f = contentBits f ++ bitsOf (checkOf (contentBits f)) ∧
    lineBits f = false :: withFill 0 (frameBits f)) ∧
  (∀ (r : Nat) (bits : List LineBit), r < 7 →
    withFill 0 (List.replicate r true ++ false :: bits) = List.replicate r true ++ false :: withFill 0 bits) ∧
  (∀ (b : LineBit) (bits : List LineBit), withFill 0 (List.replicate 7 true ++ b :: bits) =
    List.replicate 7 true ++ false :: withFill 0 (b :: bits)) ∧
  (∀ r : Nat, r ≤ 7 → withFill 0 (List.replicate r true) = List.replicate r true) ∧
  ∀ (f : Frame) (after : List LineBit), frameWellFormed f = true →
    receive (withFill 0 (frameBits f) ++ after) = .good f

/-- R30: the check register, and that running it over head, body and check leaves 0 exactly when the check is good. -/
def Obligations.CheckLeavesZero : Prop :=
  checkOf [] = 0 ∧
  (∀ (bits : List LineBit) (b : LineBit), checkOf (bits ++ [b]) =
    if xor b (checkOf bits).msb then (checkOf bits <<< 1) ^^^ 0x07#8 else checkOf bits <<< 1) ∧
  (∀ (bits : List LineBit) (check : Byte), checkOf (bits ++ bitsOf check) = 0 ↔ check = checkOf bits)

/-- R161, R162: the bytes of a request ask for exactly that request, bytes after the taking are ignored, and fewer bytes
are a transaction cut short. While RESET is high, SDO shifts out 0x00 while the request and its arguments go in, then the
response, then 0x00; a CS that rises early loses the rest; while CS is high SDO is high-impedance. The same bit by bit,
each byte most significant bit first and CS free to rise within a byte. In SPI mode 0 a rising SCK samples SDI and a
falling SCK changes SDO; the request is taken with the last bit of its last byte; the rise of CS after the 16 bytes of a
record is RECORD_REMOVED (R171), one before the taking cuts the transaction short, and after a
RESET before the taking SCK is ignored until CS next falls (R176). That SDO is high-impedance outside a transaction while
RESET or CS is low is the model's choice (log entry 17). -/
def Obligations.RequestRoundTrip : Prop :=
  ∀ (c : Instr) (bytes more : List Byte), c.wellFormed = true → transactionBytes c = some bytes →
    let bits := bytes.flatMap bitsOf
    let high : PortPins := { cs := true, sck := false, sdi := false, reset := true }
    let low : PortPins := { high with cs := false }
    let clocked := fun l : List Bool => low :: l.flatMap fun b => [{ low with sdi := b }, { low with sck := true, sdi := b }]
    let commands := commandsOfPins high noShifter
    let seen := fun l : List PortPins => (l.foldl (fun p now => (now, shifterAfter p.1 now p.2)) (high, noShifter)).2
    requestOf (bytes ++ more) = c ∧ (∀ k, k < bytes.length → requestOf (bytes.take k) = .transactionCutShort) ∧
    (∀ tail : List Bool, requestOfBits (bits ++ tail) = c ∧ commands (clocked (bits ++ tail)) = [c] ∧
      commands (clocked (bits ++ tail) ++ [low, high]) =
        if c = .readRecord ∧ 18 * 8 ≤ (bits ++ tail).length then [c, .recordRemoved] else [c]) ∧
    (∀ k, k < 8 * bytes.length → requestOfBits (bits.take k) = .transactionCutShort ∧
      commands (clocked (bits.take k)) = [] ∧
      commands (clocked (bits.take k) ++ [low, high]) = [.transactionCutShort] ∧
      ∀ l : List Bool, commands (clocked (bits.take k) ++ { low with reset := false } :: clocked l ++ [low, high]) = []) ∧
    (∀ l : List Bool, seen (clocked l) = { selected := true, sampled := l, shown := l.length - 1 }) ∧
    ∀ s t : State, s.port.resetLow = false → exec c s = .next t →
      (∀ n, n < bytes.length → sdoAt c s true n = .shifts 0) ∧
      (∀ n b, t.port.response[n]? = some b → sdoAt c s true (bytes.length + n) = .shifts b) ∧
      (∀ n, bytes.length + t.port.response.length ≤ n → sdoAt c s true n = .shifts 0) ∧
      (∀ n, sdoAt c s false n = .highImpedance ∧ sdoBitAt c s false n = none) ∧
      (∀ clocked, (shiftedOut c s clocked).length = clocked ∧
        shiftedOut c s clocked =
          (List.replicate bytes.length 0 ++ t.port.response ++ List.replicate clocked 0).take clocked) ∧
      (∀ clocks, (bitsShiftedOut c s clocks).length = clocks ∧ bitsShiftedOut c s clocks =
        ((List.replicate bytes.length 0 ++ t.port.response ++ List.replicate clocks 0).flatMap bitsOf).take clocks) ∧
      ∀ n, sdoBitAt c s true n = (bitsShiftedOut c s (n + 1))[n]? ∧
        (∀ tail, sdoOfPins { selected := true, sampled := bits ++ tail, shown := n } s = sdoBitAt c s true n) ∧
        (∀ k, k < 8 * bytes.length →
          sdoOfPins { selected := true, sampled := bits.take k, shown := n } s = some false) ∧
        ∀ l, sdoOfPins { selected := false, sampled := l, shown := n } s = none

/-! ### Modular time -/

/-- R75: lateness is 0 at T, (T − D) mod 2^32 behind T, and −((D − T) mod 2^32) ahead of it; it is positive exactly when
D is behind and negative exactly when it is ahead; the point opposite T has lateness 2^31. Placement takes it on T as it
stands, whatever the stall remainder: the EXPIRED record of R77 shows it. -/
def Obligations.LatenessIsModular : Prop :=
  (∀ t : Time, lateness t t = 0) ∧
  (∀ due t : Time, 1 ≤ (t - due).toNat → (t - due).toNat ≤ 2 ^ 31 → lateness due t = (t - due).toNat) ∧
  (∀ due t : Time, 1 ≤ (due - t).toNat → (due - t).toNat ≤ 2 ^ 31 - 1 → lateness due t = -((due - t).toNat : Int)) ∧
  (∀ due t : Time, 0 < lateness due t ↔ 1 ≤ (t - due).toNat ∧ (t - due).toNat ≤ 2 ^ 31) ∧
  (∀ due t : Time, lateness due t < 0 ↔ 1 ≤ (due - t).toNat ∧ (due - t).toNat ≤ 2 ^ 31 - 1) ∧
  (∀ due t : Time, -(2 ^ 31 - 1) ≤ lateness due t ∧ lateness due t ≤ 2 ^ 31) ∧
  (∀ t : Time, lateness (t + 0x80000000) t = 2 ^ 31) ∧
  lateness 4294967290 10 = 16 ∧ lateness 10 4294967290 = -16 ∧
  (∀ (a : PendingAction) (s : State), (s.params.lateLimit.toNat : Int) < lateness a.due s.ftu.time →
    placeAction a s = writeRecord
      { kind := .expired, time := s.ftu.time, channel := some a.channel, origin := some a.cause.origin,
        tag := some a.cause.tag, sequence := a.cause.sequence,
        value := some (BitVec.ofInt 32 (lateness a.due s.ftu.time)) } s)

/-! ### The station port -/

/-- R161 to R163: WRITE_IMAGE is LOCKED when joined, BAD_REQUEST for a bad range, and otherwise writes its bytes and
nothing else; READ_IMAGE returns the bytes in any station state and changes nothing. -/
def Obligations.ImageWriteAndRead : Prop :=
  (∀ (offset : Half) (length : Byte) (data : List Byte) (s : State), s.port.resetLow = false →
    data.length = length.toNat →
    (joined s = true → exec (.writeImage offset length data) s = .next (answer [0x01] s)) ∧
    (joined s = false → ¬ (1 ≤ length.toNat ∧ offset.toNat + length.toNat ≤ 912) →
      exec (.writeImage offset length data) s = .next (answer [0x05] s)) ∧
    (joined s = false → 1 ≤ length.toNat → offset.toNat + length.toNat ≤ 912 → memoryWf s.image = true →
      ∃ image, exec (.writeImage offset length data) s = .next (answer [0x00] { s with image := image }) ∧
        memoryWf image = true ∧
        ∀ a, readCell image a =
          if offset.toNat ≤ a then (data[a - offset.toNat]?).getD (readCell s.image a) else readCell s.image a)) ∧
  (∀ (offset : Half) (length : Byte) (s : State), s.port.resetLow = false →
    exec (.readImage offset length) s = .next
      (if 1 ≤ length.toNat ∧ offset.toNat + length.toNat ≤ 912 then
        answer (0x00 :: (List.range length.toNat).map fun i => readCell s.image (offset.toNat + i)) s
      else answer [0x05] s))

/-- R7, R43, R45, R61, R74, R95, R98, R160, R162, R167, R168, R174: COMMIT is LOCKED when joined, BAD_IMAGE with its
reason and item when validation fails, both changing nothing; one that passes gives every block its values. R165, R166:
where each field of a channel record and of a trigger entry stands in the image, and what its codes mean (what an entry
with valid = no holds outside the codes is the model's choice, log entry 19, and not stated). That the count of recessive
bit times starts again at a COMMIT is the model's reading of R43 (log entry 9). -/
def Obligations.CommitJoins : Prop :=
  (∀ (m : List Host.Cell) (c : Nat),
    let o := 16 + 16 * c
    let cfg := channelConfigAt m c
    (∀ x ∈ [(0x00#8, Mode.unused), (0x01, .oneShot), (0x02, .delayed), (0x03, .repeating), (0x04, .paired),
            (0x05, .captureFree), (0x06, .captureClear), (0x07, .qualify)], readCell m o = x.1 → cfg.mode = x.2) ∧
    cfg.rateTap = readCell m (o + 1) ∧ cfg.initialA = readCell m (o + 2) ++ readCell m (o + 3) ∧
    cfg.initialB = readCell m (o + 4) ++ readCell m (o + 5) ∧ cfg.idleLevel = readCell m (o + 6) ∧
    cfg.edge = readCell m (o + 7) ∧ cfg.activeLevel = readCell m (o + 8) ∧ cfg.flags = readCell m (o + 9) ∧
    cfg.startTag = readCell m (o + 10) ++ readCell m (o + 11) ∧
    cfg.endTag = readCell m (o + 12) ++ readCell m (o + 13) ∧
    cfg.inputTag = readCell m (o + 14) ++ readCell m (o + 15)) ∧
  (∀ (m : List Host.Cell) (i : Nat),
    let o := 144 + 12 * i
    let e := trigEntryAt m i
    e.valid = (readCell m o).getLsbD 0 ∧ e.note = (readCell m o).getLsbD 1 ∧
    (readCell m (o + 1) ++ readCell m (o + 2) ≤ 1023#16 →
      e.tag.toNat = (readCell m (o + 1) ++ readCell m (o + 2)).toNat) ∧
    (readCell m (o + 3) = 0 → e.filter = .any) ∧ (readCell m (o + 3) = 64 → e.filter = .self) ∧
    (readCell m (o + 3) = 65 → e.filter = .remote) ∧
    (∀ x : StationId, 1 ≤ x.toNat → x.toNat ≤ 62 → (readCell m (o + 3)).toNat = x.toNat → e.filter = .station x) ∧
    ((readCell m (o + 4)).toNat ≤ 7 → e.channel.val = (readCell m (o + 4)).toNat) ∧
    (∀ x ∈ [(0x01#8, Action.arm), (0x02, .halt), (0x03, .correct), (0x04, .loadA), (0x05, .loadB), (0x06, .snap)],
      readCell m (o + 5) = x.1 → e.action = x.2) ∧
    e.offset = readCell m (o + 6) ++ readCell m (o + 7) ++ readCell m (o + 8) ∧
    (∀ x ∈ [(0x00#8, OperandSource.noOperand), (0x01, .frame), (0x02, .fixed)], readCell m (o + 9) = x.1 →
      e.source = x.2) ∧
    e.fixed = readCell m (o + 10) ++ readCell m (o + 11)) ∧
  ∀ s : State, s.port.resetLow = false →
    (joined s = true → exec .commit s = .next (answer [0x01, 0, 0] s)) ∧
    (∀ reason item, joined s = false → validate s.image = some (reason, item) →
      exec .commit s = .next (answer [0x02, reason, item] s)) ∧
    (joined s = false → validate s.image = none →
      exec .commit s = .next (answer [0x00, 0, 0] { s with
        ftu := { time := 0, station := .listening, stall := 0, marker := none, holdoverCount := 0,
                 discordCount := 0, listenEnd := 2#32 * (1#32 <<< (readCell s.image 1).toNat) }
        params := { id := (readCell s.image 0).setWidth 6, k := readCell s.image 1,
                    window := readCell s.image 2 ++ readCell s.image 3,
                    latency := readCell s.image 4, lateLimit := readCell s.image 5 ++ readCell s.image 6,
                    holdoverLimit := readCell s.image 7, rollInterval := readCell s.image 8,
                    ageLimit := readCell s.image 9, copies := readCell s.image 10 }
        liu := { tx := if s.liu.tx = .draining then .draining else .ready, rx := .seeking, offer := none,
                 attempt := if s.liu.tx = .draining then s.liu.attempt else none, muted := false, muteLeft := 0,
                 recessive := 0 }
        counters := { framesReceived := 0, checkErrors := 0, malformed := 0, bitFaults := 0, duplicates := 0,
                      stale := 0, unlisted := 0, ownId := 0, untimed := 0, stepped := 0 }
        roster := []
        table := (List.range 64).map (trigEntryAt s.image)
        schedule := []
        channels := Vector.ofFn fun c =>
          let cfg := channelConfigAt s.image c.val
          { cfg := cfg, state := if cfg.mode = .unused then .disabled else .idle, counter := 0,
            workA := cfg.initialA, workB := cfg.initialB, stagedA := none, stagedB := none, pairReady := false,
            held := none, measureValue := 0, measureTime := 0, wrap := 0, runStart := 0, output := false,
            sampled := none, tapDue := false, sampleOpen := false }
        pub := { queue := [], markSlot := none, rollSlot := none, ownSequence := s.pub.ownSequence,
                 restartPending := true }
        due := .none }))

/-- R94, R164 to R167: COMMIT reports the first check that fails in the order of the reasons, and within the channels and
the trigger entries the first item that fails; it reports none exactly when every check passes. R94, R165: what makes a
channel record pass. R64, R65, R166: what makes a trigger entry pass. -/
def Obligations.ValidationOrder : Prop :=
  ∀ m : List Host.Cell,
    let byte := fun a => (readCell m a).toNat
    let word := fun a => 256 * (readCell m a).toNat + (readCell m (a + 1)).toNat
    let tagged := fun a => word a ≤ 1023 ∨ word a = 65535
    (∀ c, let o := 16 + 16 * c
      channelRecordOk m c = true ↔ byte o = 0 ∨
        byte o ≤ 7 ∧ byte (o + 1) ≤ 3 ∧ byte (o + 9) ≤ 15 ∧ tagged (o + 10) ∧
          (byte o ∈ [1, 2, 3, 4] → byte (o + 6) ≤ 1 ∧ tagged (o + 12)) ∧
          (byte o ∈ [5, 6] → byte (o + 7) ≤ 2 ∧ tagged (o + 14)) ∧
          (byte o = 7 → byte (o + 8) ≤ 1 ∧ tagged (o + 14))) ∧
    (∀ i, let o := 144 + 12 * i
      let mode := byte (16 + 16 * byte (o + 4))
      trigEntryOk m (readCell m 0) i = true ↔ (readCell m o).getLsbD 0 = false ∨
        word (o + 1) ≤ 1023 ∧ (byte (o + 3) ≤ 62 ∨ byte (o + 3) = 64 ∨ byte (o + 3) = 65) ∧ byte (o + 3) ≠ byte 0 ∧
          byte (o + 4) ≤ 7 ∧ 1 ≤ mode ∧ mode ≤ 7 ∧
          (byte (o + 5) ∈ [1, 2, 6] ∧ byte (o + 9) = 0 ∨
            byte (o + 5) = 3 ∧ mode ∈ [1, 2] ∧ byte (o + 9) ∈ [1, 2] ∨
            byte (o + 5) = 4 ∧ mode ∈ [1, 2, 3, 4, 7] ∧ byte (o + 9) ∈ [1, 2] ∨
            byte (o + 5) = 5 ∧ mode ∈ [2, 4] ∧ byte (o + 9) ∈ [1, 2])) ∧
    let id := (readCell m 0).toNat
    let k := (readCell m 1).toNat
    let w := word 2
    let interval := (readCell m 8).toNat
    let age := (readCell m 9).toNat
    let copies := (readCell m 10).toNat
    let okId := 1 ≤ id ∧ id ≤ 62
    let okEpoch := okId ∧ 10 ≤ k ∧ k ≤ 16
    let okWindow := okEpoch ∧ 1 ≤ w ∧ w ≤ 1023 ∧ 4 * w < 2 ^ k
    let okRoll := okWindow ∧ interval ∈ [4, 8, 16, 32, 64]
    let okAge := okRoll ∧ 8 ≤ age ∧ 2 * interval ≤ age
    let okCopies := okAge ∧ 1 ≤ copies ∧ copies ≤ 3
    let okHoldover := okCopies ∧ readCell m 7 ≠ 0
    let okChannels := okHoldover ∧ ∀ c, c < 8 → channelRecordOk m c = true
    (validate m = none ↔ okChannels ∧ ∀ i, i < 64 → trigEntryOk m (readCell m 0) i = true) ∧
    ∀ reason item, validate m = some (reason, item) →
      (reason = 1 ∧ item = 0 ∧ ¬ okId) ∨ (reason = 2 ∧ item = 1 ∧ okId ∧ ¬ okEpoch) ∨
      (reason = 3 ∧ item = 2 ∧ okEpoch ∧ ¬ okWindow) ∨ (reason = 4 ∧ item = 8 ∧ okWindow ∧ ¬ okRoll) ∨
      (reason = 5 ∧ item = 9 ∧ okRoll ∧ ¬ okAge) ∨ (reason = 6 ∧ item = 10 ∧ okAge ∧ ¬ okCopies) ∨
      (reason = 7 ∧ item = 7 ∧ okCopies ∧ ¬ okHoldover) ∨
      (reason = 8 ∧ item.toNat < 8 ∧ okHoldover ∧ channelRecordOk m item.toNat = false ∧
        ∀ c, c < item.toNat → channelRecordOk m c = true) ∨
      (reason = 9 ∧ item.toNat < 64 ∧ okChannels ∧ trigEntryOk m (readCell m 0) item.toNat = false ∧
        ∀ i, i < item.toNat → trigEntryOk m (readCell m 0) i = true)

/-- R8, R42, R45, R61, R74, R98, R105, R159, R160, R168: LEAVE in a joined state makes the station DETACHED with T frozen,
every block at its values for LEAVE, and writes no record of its own; in DETACHED it is answered OK and has no effect.
The actions that left the schedule at the present tick are applied first (R84, R91; log entry 5): they reach nothing
but channels and records. That all else which the tick has reached is dropped is the model's choice (log entry 31), and so
is the ARM in the action field of a cleared trigger entry, which has no code 0 (log entry 19). -/
def Obligations.LeaveDetaches : Prop :=
  ∀ s : State, s.port.resetLow = false →
    (joined s = false → exec .leave s = .next (answer [0x00] s)) ∧
    (joined s = true →
      let u := applyAll s.due.releasing { s with due := { s.due with releasing := [], moments := [] } }
      u = { s with channels := u.channels, log := u.log, due := { s.due with releasing := [], moments := [] } } ∧
      (s.due.releasing = [] → s.due.moments = [] → u = s) ∧
      exec .leave s = .next (answer [0x00] { u with
        ftu := { s.ftu with station := .detached, stall := 0, marker := none, holdoverCount := 0, discordCount := 0 }
        liu :=
          { tx := if s.liu.tx = .head ∨ s.liu.tx = .body ∨ s.liu.tx = .draining then .draining else .off,
            rx := .seeking, offer := none, muted := false, muteLeft := 0, recessive := s.liu.recessive,
            attempt := if s.liu.tx = .head ∨ s.liu.tx = .body ∨ s.liu.tx = .draining then s.liu.attempt else none }
        roster := []
        table := List.replicate 64
          { valid := false, note := false, tag := 0, filter := .any, channel := 0, action := .arm, offset := 0,
            source := .noOperand, fixed := 0 }
        schedule := []
        channels := Vector.ofFn fun c => { channelOf u c with
          state := if (channelOf u c).state = .disabled then .disabled else .idle, output := false, stagedA := none,
          stagedB := none, pairReady := false, held := none, sampled := none, tapDue := false, sampleOpen := false }
        pub := { s.pub with queue := [], markSlot := none, rollSlot := none }
        due := .none }))

/-- R150, R151, R162, R169: POST is NOT_JOINED in DETACHED, BAD_REQUEST for a tag above 1023 or flags above 3, and
otherwise handed to Publishing at the present T with its value when present, and answered OK. A release still due is
taken before the walk (R84, R89; log entry 5). That its event is untimed after the tick to 2L and before LISTEN_END is the
model's choice (log entry 25). -/
def Obligations.PostIsHandedOn : Prop :=
  ∀ (tag : Half) (flags : Byte) (value : Half) (s : State), s.port.resetLow = false →
    (joined s = false → exec (.post tag flags value) s = .next (answer [0x03] s)) ∧
    (joined s = true → 1023 < tag.toNat ∨ 3 < flags.toNat →
      exec (.post tag flags value) s = .next (answer [0x05] s)) ∧
    (joined s = true → tag.toNat ≤ 1023 → flags.toNat ≤ 3 →
      ∃ t, exec (.post tag flags value) s = .next (answer [0x00] t) ∧
        t = (let notice : Notice :=
               { origin := s.params.id, sequence := none, tag := tag.setWidth 10,
                 value := if flags &&& 0x01 = 0x01 then some value else none, reference := s.ftu.time }
             if flags &&& 0x02 = 0x02 then
               appendEvent none (tag.setWidth 10) s.ftu.time notice.value (walkNotice notice (releaseDue s))
             else walkNotice notice (releaseDue s)))

/-- R161, R171, R172: READ_RECORD returns the oldest record as 16 bytes in the layout and with the kind codes of R172,
absent fields 0, and leaves it there, or EMPTY; RECORD_REMOVED takes it from the head, and a lost count that is not 0
puts a LOST record in the freed place. That a RECORD_REMOVED with no read record changes nothing is the model's reading
(log entries 3 and 17). -/
def Obligations.RecordReadAndRemoved : Prop :=
  (∀ r : Record,
    let bit := fun (weight : Byte) (present : Bool) => if present then weight else 0
    let time := r.time.toNat
    let value := (r.value.getD 0).toNat
    let tag := (r.tag.map BitVec.toNat).getD 0
    recordBytes r = [recordCode r.kind,
      bit 1 r.channel.isSome + bit 2 r.origin.isSome + bit 4 r.tag.isSome + bit 8 r.sequence.isSome +
        bit 16 r.value.isSome,
      BitVec.ofNat 8 (time / 16777216), BitVec.ofNat 8 (time / 65536), BitVec.ofNat 8 (time / 256), BitVec.ofNat 8 time,
      BitVec.ofNat 8 ((r.channel.map Fin.val).getD 0), BitVec.ofNat 8 ((r.origin.map BitVec.toNat).getD 0),
      BitVec.ofNat 8 (tag / 256), BitVec.ofNat 8 tag, r.sequence.getD 0,
      BitVec.ofNat 8 (value / 16777216), BitVec.ofNat 8 (value / 65536), BitVec.ofNat 8 (value / 256),
      BitVec.ofNat 8 value, 0]) ∧
  [RecordKind.chStart, .chEnd, .capture, .qualified, .snap, .matched, .late, .expired, .displaced, .refused,
    .actionRefused, .clamped, .noValue, .flushed, .synced, .holdoverEnter, .holdoverLimit, .discordEnter, .resync,
    .peerJoined, .peerLost, .rosterFull, .idClash, .publishDropped, .lineMute, .lineUnmute, .lost].map
      (fun k => (recordCode k).toNat) = (List.range 27).map (· + 1) ∧
  (∀ s : State, s.port.resetLow = false → s.log.records = [] → exec .readRecord s = .next (answer [0x04] s)) ∧
  (∀ (r : Record) (rest : List Record) (s : State), s.port.resetLow = false → s.log.records = r :: rest →
    exec .readRecord s = .next { s with port := { s.port with
      response := 0x00 :: recordBytes r, readOut := true } } ∧ (recordBytes r).length = 16) ∧
  (∀ (r : Record) (rest : List Record) (s : State), s.port.readOut = true → s.log.records = r :: rest →
    exec .recordRemoved s = .next { s with
      port := { s.port with readOut := false }
      log := { lost := 0, records := if s.log.lost = 0 then rest else rest ++
        [{ kind := .lost, time := s.ftu.time, value := some (s.log.lost.setWidth 32) }] } }) ∧
  (∀ s : State, s.port.readOut = false → exec .recordRemoved s = .next s)

/-- R92, R114, R174, R175: READ_STATUS returns 39 bytes; READ_ROSTER, READ_SCHEDULE and READ_CHANNEL return the item at
the index as 14, 14 and 43 bytes, or BAD_REQUEST out of range, in the layouts and codes of R174 and R175, absent fields
0. A read changes nothing but the response; READ_STATUS and READ_SCHEDULE come after a release that is still due, never
within it (R84, R92; log entry 5). That the station byte is LISTENING after the tick to 2L and before LISTEN_END is the
model's choice (log entry 25). -/
def Obligations.StatusAndSnapshots : Prop :=
  let bit := fun (weight : Byte) (set : Bool) => if set then weight else 0
  let two := fun x : Half => [BitVec.ofNat 8 (x.toNat / 256), BitVec.ofNat 8 x.toNat]
  let four := fun x : Time => [BitVec.ofNat 8 (x.toNat / 16777216), BitVec.ofNat 8 (x.toNat / 65536),
    BitVec.ofNat 8 (x.toNat / 256), BitVec.ofNat 8 x.toNat]
  [StationState.detached, .listening, .synced, .holdover, .discord].map (fun x => (stationCode x).toNat) =
    List.range 5 ∧
  [Mode.unused, .oneShot, .delayed, .repeating, .paired, .captureFree, .captureClear, .qualify].map
    (fun x => (modeCode x).toNat) = List.range 8 ∧
  [ChannelState.disabled, .idle, .starting, .active, .lead, .running, .phaseA, .phaseB, .counting, .watching,
    .qualifying, .held].map (fun x => (channelStateCode x).toNat) = List.range 12 ∧
  [Action.arm, .halt, .correct, .loadA, .loadB, .snap].map (fun x => (actionCode x).toNat) = [1, 2, 3, 4, 5, 6] ∧
  ∀ s : State, s.port.resetLow = false →
    let u := releaseDue s
    (s.due.releasing = [] → s.due.moments = [] → u = s) ∧
    exec .readStatus s = .next (answer (0x00 :: ([stationCode s.ftu.station] ++ four s.ftu.time ++
      four (s.ftu.time >>> s.params.k.toNat) ++ [s.ftu.holdoverCount, s.ftu.discordCount, bit 1 s.liu.muted,
        s.liu.muteLeft, BitVec.ofNat 8 s.schedule.length, BitVec.ofNat 8 s.pub.queue.length,
        BitVec.ofNat 8 s.roster.length, BitVec.ofNat 8 u.log.records.length] ++ two u.log.lost ++
      two s.counters.framesReceived ++ two s.counters.checkErrors ++ two s.counters.malformed ++
      two s.counters.bitFaults ++ two s.counters.duplicates ++ two s.counters.stale ++ two s.counters.unlisted ++
      two s.counters.ownId ++ two s.counters.untimed ++ two s.counters.stepped)) u) ∧
    (∀ index : Byte, s.roster.length ≤ index.toNat → exec (.readRoster index) s = .next (answer [0x05] s)) ∧
    (∀ (index : Byte) (e : RosterEntry), s.roster[index.toNat]? = some e →
      exec (.readRoster index) s = .next (answer (0x00 :: ([BitVec.ofNat 8 e.origin.toNat] ++ four e.joinedEpoch ++
        four e.lastHeard ++ [bit 1 e.lastSequence.isSome + bit 2 e.reported.isSome, e.lastSequence.getD 0] ++
        (match e.reported with
          | some r => [stationCode r.state, BitVec.ofNat 8 r.rosterSize.toNat, BitVec.ofNat 8 r.occupancy.toNat]
          | none => [0, 0, 0]))) s)) ∧
    (∀ index : Byte, s.schedule.length ≤ index.toNat → exec (.readSchedule index) s = .next (answer [0x05] u)) ∧
    (∀ (index : Byte) (a : PendingAction), s.schedule[index.toNat]? = some a →
      exec (.readSchedule index) s = .next (answer (0x00 :: (four a.due ++ [BitVec.ofNat 8 a.channel.val,
        actionCode a.action, bit 1 a.operand.isSome + bit 2 a.cause.sequence.isSome] ++ two (a.operand.getD 0) ++
        [BitVec.ofNat 8 a.cause.origin.toNat] ++ two (BitVec.ofNat 16 a.cause.tag.toNat) ++
        [a.cause.sequence.getD 0, a.cause.entry])) u)) ∧
    (∀ channel : Byte, 7 < channel.toNat → exec (.readChannel channel) s = .next (answer [0x05] s)) ∧
    ∀ c : ChannelId,
      let ch := channelOf s c
      exec (.readChannel (BitVec.ofNat 8 c.val)) s = .next (answer (0x00 :: ([modeCode ch.cfg.mode, ch.cfg.rateTap] ++
        two ch.cfg.initialA ++ two ch.cfg.initialB ++ [ch.cfg.idleLevel, ch.cfg.edge, ch.cfg.activeLevel,
          ch.cfg.flags] ++ two ch.cfg.startTag ++ two ch.cfg.endTag ++ two ch.cfg.inputTag ++
        [channelStateCode ch.state] ++ two ch.counter ++ two ch.workA ++ two ch.workB ++
        [bit 0x01 ch.stagedA.isSome + bit 0x02 ch.stagedB.isSome + bit 0x04 ch.held.isSome + bit 0x08 ch.pairReady +
          bit 0x10 ch.output + bit 0x20 (decide (ch.sampled = some true)) + bit 0x40 ch.sampled.isSome] ++
        two (ch.stagedA.getD 0) ++ two (ch.stagedB.getD 0) ++ four (BitVec.ofInt 32 (ch.held.getD 0)) ++
        two ch.measureValue ++ four ch.measureTime ++ [ch.wrap] ++ four ch.runStart)) s)

/-- R161, R162, R176: an unknown code is answered BAD_REQUEST with no data; a transaction cut short is answered nothing
and changes nothing else. RESET low puts every item at its start-up value, which R6, R43, R45, R59, R61, R74, R87, R95,
R98, R160, R163, R170, R174 and R175 give and the last clause writes out, and the port takes nothing; RESET high again
changes nothing else. The 0 of the station id, late limit, roll interval and age limit is the model's choice (log entry
14), and so are the 0 of the count of recessive bit times (log entry 9), the ARM of a cleared trigger entry (log
entry 19), and that the waiting commands and the pins' outside levels stand (log entry 30). -/
def Obligations.ResetPinAndNoRequest : Prop :=
  (∀ (code : Byte) (s : State), s.port.resetLow = false →
    code ∉ [0x01, 0x02, 0x10, 0x11, 0x20, 0x30, 0x31, 0x32, 0x33, 0x34] →
    exec (.unknownRequest code) s = .next (answer [0x05] s)) ∧
  (∀ s : State, s.port.resetLow = false → exec .transactionCutShort s = .next (answer [] s)) ∧
  (∀ s : State, exec .startUpReset s = .next { State.reset with
      port := { response := [], readOut := false, resetLow := true }, pins := s.pins, pending := s.pending }) ∧
  (∀ s : State, exec .resetReturnsHigh s = .next { s with port := { s.port with resetLow := false } }) ∧
  (∀ (c : Instr) (s : State), (transactionBytes c).isSome = true ∨ c = .transactionCutShort →
    s.port.resetLow = true → exec c s = .next s) ∧
  (State.reset.ftu =
      { time := 0, station := .detached, stall := 0, marker := none, holdoverCount := 0, discordCount := 0,
        listenEnd := 0 } ∧
    State.reset.params =
      { id := 0, k := 10, window := 1, latency := 0, lateLimit := 0, holdoverLimit := 1, rollInterval := 0,
        ageLimit := 0, copies := 1 } ∧
    State.reset.liu =
      { tx := .off, rx := .seeking, attempt := none, offer := none, muted := false, muteLeft := 0, recessive := 0 } ∧
    State.reset.counters =
      { framesReceived := 0, checkErrors := 0, malformed := 0, bitFaults := 0, duplicates := 0, stale := 0,
        unlisted := 0, ownId := 0, untimed := 0, stepped := 0 } ∧
    State.reset.roster = [] ∧ State.reset.schedule = [] ∧
    State.reset.table = List.replicate 64
      { valid := false, note := false, tag := 0, filter := .any, channel := 0, action := .arm, offset := 0,
        source := .noOperand, fixed := 0 } ∧
    (∀ c : ChannelId, channelOf State.reset c =
      { cfg :=
          { mode := .unused, rateTap := 0, initialA := 0, initialB := 0, idleLevel := 0, edge := 0, activeLevel := 0,
            flags := 0, startTag := 0xFFFF, endTag := 0xFFFF, inputTag := 0xFFFF }
        state := .disabled, counter := 0, workA := 0, workB := 0, stagedA := none, stagedB := none,
        pairReady := false, held := none, measureValue := 0, measureTime := 0, wrap := 0, runStart := 0,
        output := false, sampled := none, tapDue := false, sampleOpen := false } ∧
      pinDrive (channelOf State.reset c) = .highImpedance) ∧
    State.reset.pub =
      { queue := [], markSlot := none, rollSlot := none, ownSequence := 0, restartPending := false } ∧
    (∀ a, readCell State.reset.image a = 0) ∧ State.reset.log = { records := [], lost := 0 } ∧
    State.reset.due =
      { ftuBoundary := false, liuBoundary := false, midEpoch := false, releasing := [], moments := [] } ∧
    joined State.reset = false ∧ attnLow State.reset = false ∧ validate State.reset.image = some (1, 0))

/-- R173: ATTN is driven low while the record queue holds one or more records and high while it is empty; it goes low
when a record joins an empty queue, and is high after a start-up reset. -/
def Obligations.AttnFollowsQueue : Prop :=
  (∀ s : State, attnLow s = true ↔ s.log.records ≠ []) ∧
  (∀ (r : Record) (s : State), s.log.records = [] → attnLow s = false ∧ attnLow (writeRecord r s) = true) ∧
  (∀ (r : Record) (s t : State), s.log.records = [r] → s.port.readOut = true → exec .recordRemoved s = .next t →
    (attnLow t = false ↔ s.log.lost = 0)) ∧
  (∀ s t : State, exec .startUpReset s = .next t → attnLow t = false)

/-! ### Ticks and what they reach -/

/-- R1, R4, R5, R84: a fabric tick, with everything the last instant left taken first (the model's choice, log entry 4):
T advances by one, what the new T reaches is due, the actions due leave the list, and channels take the tick. A
swallowed tick keeps T and everything that T reaches, decreases the stall remainder by one, and lets input channels
sample (R16, R86, R100, R111). Which of the two a local tick is, the stall remainder decides (log entry 3). -/
def Obligations.LocalTicks : Prop :=
  (∀ (order : TickOrder) (s : State),
    (joined s = true → s.ftu.stall = 0 →
      let u := settle s
      let t := s.ftu.time + 1
      let into := t &&& ((1#32 <<< s.params.k.toNat) - 1)
      exec (.fabricTick order) s = .next { u with
        ftu := { u.ftu with time := t }
        schedule := u.schedule.filter fun a => a.due != t
        channels := Vector.ofFn fun c => tickChannel t (order.late.getLsbD c.val) (s.pins.getLsbD c.val) (channelOf u c)
        due := { ftuBoundary := into == 0, liuBoundary := into == 0,
                 midEpoch := into == (1#32 <<< s.params.k.toNat) >>> 1,
                 releasing := u.schedule.filter fun a => a.due == t, moments := order.moments } }) ∧
    (joined s = false ∨ s.ftu.stall ≠ 0 → exec (.fabricTick order) s = .next s)) ∧
  ∀ s : State,
    (joined s = true → s.ftu.stall ≠ 0 →
      let u := settle s
      exec .swallowedTick s = .next { u with
        ftu := { u.ftu with stall := u.ftu.stall - 1 }
        channels := Vector.ofFn fun c =>
          let ch := channelOf u c
          if isInputMode ch.cfg.mode = false then ch
          else if ch.sampled.isSome then { ch with sampleOpen := true }
          else followLevel s.ftu.time (s.pins.getLsbD c.val) (recordSample (s.pins.getLsbD c.val) ch) }) ∧
    (joined s = false ∨ s.ftu.stall = 0 → exec .swallowedTick s = .next s)

/-- R4, R13, R20, R22, R37, R84, R99, R111: settling takes all that the present instant has left, and nothing twice, in
the fixed order that is the model's choice (log entry 4): the listen end, the boundary, the mute count, the unmute, the
mid-epoch instant, the release, and channel by channel the tap instant and then the pin change, each as its own row
takes it. -/
def Obligations.SettleIsComplete : Prop :=
  (∀ s : State, settled (settle s) ∧ (settled s → settle s = s)) ∧
  (∀ s : State, settle s = ([0, 1, 2, 3, 4, 5, 6, 7] : List ChannelId).foldl (fun t c => takeSampleDue c (takeTap c t))
    (releaseDue (takeMidEpoch false (takeUnmute (takeMuteCount (takeBoundary (takeListenEnd s))))))) ∧
  (∀ s : State,
    exec .listenEnd s = .next (takeListenEnd s) ∧ exec .boundaryReached s = .next (takeBoundary s) ∧
    exec .lineUnmute s = .next (takeUnmute s) ∧ exec (.midEpochInstant false) s = .next (takeMidEpoch false s) ∧
    (s.due.moments = [] → exec .release s = .next (releaseDue s)) ∧
    let counted := { s with due := { s.due with liuBoundary := false } }
    (s.due.liuBoundary = false ∨ s.liu.muted = true ∧ s.liu.muteLeft.toNat ≤ 1 → takeMuteCount s = s) ∧
    (s.due.liuBoundary = true → s.liu.muted = false → takeMuteCount s = counted) ∧
    (s.due.liuBoundary = true → s.liu.muted = true → 2 ≤ s.liu.muteLeft.toNat →
      takeMuteCount s = { counted with liu := { s.liu with muteLeft := s.liu.muteLeft - 1 } })) ∧
  ∀ (c : ChannelId) (s : State), s.due.releasing = [] →
    let ch := channelOf s c
    (ch.state = .starting ∨ ch.state = .counting → exec (.start c) s = .next (takeTap c s)) ∧
    (∀ x : Mode × ChannelState × Instr,
      x ∈ [(.oneShot, .active, .oneShotUnderflow c), (.delayed, .lead, .leadUnderflow c),
           (.delayed, .active, .delayedActiveUnderflow c), (.repeating, .running, .repeatUnderflow c),
           (.paired, .phaseA, .phaseAUnderflow c), (.paired, .phaseB, .periodBoundary c),
           (.qualify, .qualifying, .qualified c)] →
      ch.cfg.mode = x.1 → ch.state = x.2.1 → exec x.2.2 s = .next (takeTap c s)) ∧
    (ch.state ∈ [.disabled, .idle, .watching, .held] → ch.tapDue = true →
      takeTap c s = setChannel c { ch with tapDue := false } s) ∧
    (joined s = true → exec (.pinChange c (s.pins.getLsbD c.val)) s = .next (takeSampleDue c s))

/-- R5, R97, R99, R111, R135, R144: what a fabric tick does to a channel that takes it in the tick. Outside its tap instants
it counts nothing. At one, a counting state counts, down by one or up by one with the wrap counted; a start or an
underflow is left to its own command. An input channel with a sample behind it may now show a change; the first sample
of a joined period is a level, taken after the count. A late channel takes its count and sample later in the instant
(log entry 6). -/
def Obligations.TickCountsChannels : Prop :=
  ∀ (t : Time) (pin : Bool) (ch : Channel), ch.cfg.mode ≠ .unused →
    let sampling := isInputMode ch.cfg.mode || ch.sampleOpen
    let tap := t &&& (1#32 <<< (2 * ch.cfg.rateTap.toNat) - 1) = 0
    let down := ch.state ∈ [.active, .lead, .running, .phaseA, .phaseB, .qualifying]
    let active := pin = (ch.cfg.activeLevel != 0)
    ∃ counted : Channel,
      (¬ tap → counted = ch) ∧
      (tap → ch.state = .starting → counted = { ch with tapDue := true }) ∧
      (tap → down → ch.counter = 0 → counted = { ch with tapDue := true }) ∧
      (tap → down → ch.counter ≠ 0 → counted = { ch with counter := ch.counter - 1 }) ∧
      (tap → ch.state = .counting → counted = { ch with
        counter := ch.counter + 1
        wrap := if ch.counter = 0xFFFF ∧ ch.wrap ≠ 0xFF then ch.wrap + 1 else ch.wrap }) ∧
      (tap → ch.state ∈ [.disabled, .idle, .watching, .held] → counted = ch) ∧
      (ch.sampled.isSome = true ∨ isInputMode ch.cfg.mode = false →
        tickChannel t false pin ch = { counted with sampleOpen := sampling }) ∧
      (ch.sampled = none → isInputMode ch.cfg.mode = true →
        let seen := { counted with sampled := some pin, sampleOpen := false }
        (ch.state = .watching → active →
          tickChannel t false pin ch = { seen with state := .qualifying, counter := ch.workA, runStart := t }) ∧
        (ch.state = .qualifying ∨ ch.state = .held → ¬ active →
          tickChannel t false pin ch = { seen with state := .watching }) ∧
        (¬ (ch.state = .watching ∧ active) → ¬ ((ch.state = .qualifying ∨ ch.state = .held) ∧ ¬ active) →
          tickChannel t false pin ch = seen)) ∧
      tickChannel t true pin ch = { ch with tapDue := if tap then true else ch.tapDue, sampleOpen := sampling }

/-- R13, R37: the listen end that a tick reached ends LISTENING, with a SYNCED record that has neither origin nor value.
The last boundary of a mute spell ends it with LINE_UNMUTE, and the queue entry that caused it is back at no fault
attempts; any other boundary of the spell is no unmute (log entries 3 and 28). -/
def Obligations.ListenEndAndUnmute : Prop :=
  (∀ s : State, s.due.liuBoundary = true →
    (s.liu.muted = true → s.liu.muteLeft.toNat ≤ 1 →
      exec .lineUnmute s = .next { writeRecord { kind := .lineUnmute, time := s.ftu.time } { s with
          liu := { s.liu with muted := false, muteLeft := 0 }
          pub := { s.pub with queue := s.pub.queue.map fun e => if 8 ≤ e.faults then { e with faults := 0 } else e } } with
        due := { s.due with liuBoundary := false } }) ∧
    (s.liu.muted = false ∨ 2 ≤ s.liu.muteLeft.toNat → exec .lineUnmute s = .next s)) ∧
  ∀ s : State,
    (s.ftu.station = .listening → s.ftu.time = s.ftu.listenEnd →
      exec .listenEnd s = .next (writeRecord { kind := .synced, time := s.ftu.time }
        { s with ftu := { s.ftu with station := .synced } })) ∧
    (s.ftu.station ≠ .listening ∨ s.ftu.time ≠ s.ftu.listenEnd → exec .listenEnd s = .next s)

/-- R22, R23, R37, R156: a boundary B reached by a tick, taken by the FTU and, but for the last boundary of a mute
spell, by the LIU. Satisfied or muted, it raises nothing; unsatisfied in SYNCED or HOLDOVER it raises the own MARK
request for B with no fault attempts, which replaces any earlier one. In LISTENING before its end and in DISCORD it
raises none. At the last boundary of a mute spell the FTU's part, taken first, raises nothing and leaves the unmute to
LINE_UNMUTE; taken after it, the FTU finds the station not muted (R37). The listen end that falls on B is taken first
(R13; log entry 25). -/
def Obligations.BoundaryRaisesMark : Prop :=
  ∀ s : State, s.due.ftuBoundary = true →
    let d := { s.due with ftuBoundary := false, liuBoundary := false }
    let lost := fun a : Attempt => if a.item = .mark then { a with pending := false } else a
    (s.ftu.station = .synced ∨ s.ftu.station = .holdover → s.liu.muted = false →
      s.ftu.marker ≠ some s.ftu.time →
      exec .boundaryReached s = .next { askArbiter { s with
          pub := { s.pub with markSlot := some { boundary := s.ftu.time, faults := 0 } }
          liu := { s.liu with attempt := s.liu.attempt.map lost } } with due := d }) ∧
    (s.ftu.station = .synced ∨ s.ftu.station = .holdover → s.liu.muted = false →
      s.ftu.marker = some s.ftu.time → (∀ r ∈ s.pub.markSlot, signedDifference r.boundary s.ftu.time < 0) →
      exec .boundaryReached s = .next { s with
        due := d, pub := { s.pub with markSlot := none }
        liu := { s.liu with attempt := if s.pub.markSlot = none then s.liu.attempt else s.liu.attempt.map lost } }) ∧
    (s.ftu.station = .discord ∨ s.ftu.station = .listening ∧ s.ftu.time ≠ s.ftu.listenEnd → s.liu.muted = false →
      exec .boundaryReached s = .next { s with due := d }) ∧
    (¬ (s.ftu.station = .listening ∧ s.ftu.time = s.ftu.listenEnd) → s.pub.markSlot = none → s.liu.muted = true →
      s.due.liuBoundary = true → 2 ≤ s.liu.muteLeft.toNat →
      exec .boundaryReached s = .next { s with due := d, liu := { s.liu with muteLeft := s.liu.muteLeft - 1 } }) ∧
    (¬ (s.ftu.station = .listening ∧ s.ftu.time = s.ftu.listenEnd) → s.pub.markSlot = none → s.liu.muted = true →
      s.due.liuBoundary = true → s.liu.muteLeft.toNat ≤ 1 →
      exec .boundaryReached s = .next { s with due := { s.due with ftuBoundary := false } } ∧
      ∃ t, exec .lineUnmute s = .next t ∧ t.due.ftuBoundary = true ∧ t.liu.muted = false ∧ t.ftu = s.ftu ∧
        t.pub.markSlot = none) ∧
    (s.ftu.station = .listening → s.ftu.time = s.ftu.listenEnd →
      exec .boundaryReached s = exec .boundaryReached (writeRecord { kind := .synced, time := s.ftu.time }
        { s with ftu := { s.ftu with station := .synced } }))

/-- R4, R20, R21, R48, R50: a mid-epoch instant that a tick reached: the FTU judges the boundary half an epoch before
it, and the roster ages and asks for a ROLL, in the order the sender gives (log entry 7). The FTU's judgement is
R20's table. -/
def Obligations.MidEpochJudges : Prop :=
  (∀ (rosterFirst : Bool) (s : State), s.due.midEpoch = true →
    let e := s.ftu.time >>> s.params.k.toNat
    let b := s.ftu.time - (1#32 <<< s.params.k.toNat) >>> 1
    let u := { s with due := { s.due with midEpoch := false } }
    exec (.midEpochInstant rosterFirst) s = .next
      (if rosterFirst then holdoverCheck b (rollRequest e (ageRoster e u))
       else rollRequest e (ageRoster e (holdoverCheck b u)))) ∧
  (∀ (b : Time) (s : State), s.ftu.marker = some b ∨ s.ftu.station = .listening ∨ s.ftu.station = .detached →
    holdoverCheck b s = s) ∧
  (∀ (b : Time) (s : State), s.ftu.marker ≠ some b → s.ftu.station = .synced ∨ s.ftu.station = .discord →
    let u := writeRecord { kind := .holdoverEnter, time := s.ftu.time } { s with
      ftu := { s.ftu with station := .holdover, holdoverCount := 1, discordCount := 0 } }
    holdoverCheck b s =
      if s.params.holdoverLimit = 1 then writeRecord { kind := .holdoverLimit, time := s.ftu.time } u else u) ∧
  (∀ (b : Time) (s : State), s.ftu.marker ≠ some b → s.ftu.station = .holdover →
    let u := { s with ftu := { s.ftu with holdoverCount := s.ftu.holdoverCount + 1 } }
    holdoverCheck b s =
      if s.ftu.holdoverCount = 255 then s
      else if s.ftu.holdoverCount + 1 = s.params.holdoverLimit then
        writeRecord { kind := .holdoverLimit, time := s.ftu.time } u
      else u)

/-- R48, R50: at the mid-epoch instant of epoch e every entry not heard for the age limit leaves the roster, in ascending
order, each with PEER_LOST; and the ROLL request is raised, with no fault attempts, exactly in the station's own epochs
and while it is not muted. -/
def Obligations.RosterAgesAndRolls : Prop :=
  (∀ (e : Time) (s : State),
    let old := fun x : RosterEntry => decide (s.params.ageLimit.toNat ≤
      ((e - x.lastHeard) &&& ((1#32 <<< (32 - s.params.k.toNat)) - 1)).toNat)
    ageRoster e s = (s.roster.filter old).foldl
      (fun t x => writeRecord { kind := .peerLost, time := s.ftu.time, origin := some x.origin,
                                value := some x.lastHeard } t)
      { s with roster := s.roster.filter fun x => !old x }) ∧
  (∀ (e : Time) (s : State), s.liu.muted = false →
    e.toNat % s.params.rollInterval.toNat = s.params.id.toNat % s.params.rollInterval.toNat →
    rollRequest e s = askArbiter { s with
      pub := { s.pub with rollSlot := some { faults := 0 } }
      liu := { s.liu with attempt := s.liu.attempt.map fun a =>
        if a.item = .roll then { a with pending := false } else a } }) ∧
  (∀ (e : Time) (s : State), s.liu.muted = true ∨
    e.toNat % s.params.rollInterval.toNat ≠ s.params.id.toNat % s.params.rollInterval.toNat → rollRequest e s = s)

/-- R83, R84: RELEASE applies the actions that the tick took from the list one after the other in list order, each to
the state that the one before it left. R134: where the tick's order puts channels' tap instants or pin changes before an
action, they are taken there (the model's choice, log entry 33). An occurrence made there waits until the release is over
where its walk places an action (R84) or one of its channel waits already (R150).
A moment is left for later where an action that a walk applies at once to the event's own channel would not find the channel
as the event left it (R116, R131, R136, R145; log entry 33). Without such moments nothing but channels and records is
changed. -/
def Obligations.ReleaseAppliesInOrder : Prop :=
  (∀ (a : PendingAction) (rest : List PendingAction) (s : State), s.due.releasing = a :: rest → s.due.moments = [] →
    exec .release s = exec .release (applyAction a { s with due := { s.due with releasing := rest } })) ∧
  (∀ s : State, s.due.releasing = [] → exec .release s = .next { s with due := { s.due with moments := [] } }) ∧
  (∀ s t : State, s.due.moments = [] → exec .release s = .next t →
    t = { s with channels := t.channels, log := t.log, due := { s.due with releasing := [] } }) ∧
  (∀ s : State, ∃ t, exec .release s = .next t ∧ t.due.releasing = [] ∧ t.due.moments = []) ∧
  (∀ s : State, exec .release s = .next (publishWaiting (releaseFrom s.due.releasing s.due.moments
    ({ s with due := { s.due with releasing := [], moments := [] } }, [])))) ∧
  (∀ (a : PendingAction) (rest : List PendingAction) (now : List ChannelMoment) (more : List (List ChannelMoment))
      (p : State × List Occurrence),
    let q := now.foldl (takeMoment (a :: rest)) p
    releaseFrom (a :: rest) (now :: more) p = releaseFrom rest more (applyAction a q.1, q.2) ∧
    releaseFrom (a :: rest) [] p = releaseFrom rest [] (applyAction a p.1, p.2) ∧ releaseFrom [] more p = p) ∧
  (∀ (o : Occurrence) (os : List Occurrence) (s : State),
    publishWaiting (s, o :: os) = publishWaiting (publishOccurrence o s, os) ∧ publishWaiting (s, []) = s) ∧
  ∀ (left : List PendingAction) (c : ChannelId) (level : Bool) (s : State) (waiting : List Occurrence)
      (x : ChannelMoment × (State × Option Occurrence) × State),
    x ∈ [(.tap c, tapEvent c s, s), (.pin c level, pinEvent c level s, { s with
      pins := if level then s.pins ||| (1#8 <<< c.val) else s.pins &&& ~~~(1#8 <<< c.val) })] →
    let t := x.2.1.1
    let parts := (∃ w ∈ waiting, w.channel = c ∧ disturbs c w s t = true) ∨
      ∃ o, x.2.1.2 = some o ∧ disturbs c o t ((left ++ waiting.flatMap (actionsAt c t)).foldl
        (fun u a => applyAction a u) t) = true
    (parts → takeMoment left (s, waiting) x.1 = (x.2.2, waiting)) ∧
    (¬ parts → x.2.1.2 = none → takeMoment left (s, waiting) x.1 = (t, waiting)) ∧
    ∀ o, ¬ parts → x.2.1.2 = some o → takeMoment left (s, waiting) x.1 =
      if placesAction o t = true ∨ ∃ w ∈ waiting, w.channel = o.channel then (t, waiting ++ [o])
      else (publishOccurrence o t, waiting)

/-! ### The actions at a channel, and as a RELEASE of one action without other channel events hands them over -/

/-- R101, R104 to R106, R119, R120, R123, R127, R132, R138, R146: ARM, HALT and SNAP in every state of a channel whose
mode is not NONE: what the action does to any state (R83), and so what a RELEASE of this one action does, where the tick's
order puts no channel event before it (log entry 33). -/
def Obligations.ArmHaltSnapByState : Prop :=
  ∀ (a : PendingAction) (s : State),
    let takes := fun f : State → State => applyAction a s = f s ∧ (s.due.releasing = [a] → s.due.moments = [] →
      exec .release s = .next (f { s with due := { s.due with releasing := [], moments := [] } }))
    let ch := channelOf s a.channel
    let record := fun (kind : RecordKind) (v : BitVec 32) =>
      writeRecord { kind := kind, time := s.ftu.time, channel := some a.channel, origin := some a.cause.origin,
                    tag := some a.cause.tag, sequence := a.cause.sequence, value := some v }
    ch.cfg.mode ≠ .unused →
    (a.action = .arm → ch.state = .idle →
      takes (fun u => setChannel a.channel { ch with state := .starting, tapDue := false } u)) ∧
    (a.action = .arm → ch.state = .active → ch.cfg.mode = .oneShot →
      takes (fun u => setChannel a.channel { ch with counter := ch.workA } u)) ∧
    (a.action = .arm → ch.state ∉ [.idle, .disabled] → ¬ (ch.state = .active ∧ ch.cfg.mode = .oneShot) →
      takes (fun u => record .actionRefused 1 u)) ∧
    (a.action = .halt → ch.state = .idle → takes (fun u => u)) ∧
    (a.action = .halt → ch.state ∉ [.idle, .disabled] →
      takes (fun u => setChannel a.channel
        { ch with state := .idle, output := false, stagedA := none, stagedB := none, pairReady := false,
                  held := none } u)) ∧
    (a.action = .snap → takes (fun u =>
      let v := setChannel a.channel { ch with measureValue := ch.counter, measureTime := s.ftu.time } u
      if ch.cfg.flags.getLsbD 3 then record .snap (ch.counter.setWidth 32) v else v))

/-- R65, R107, R108, R120, R123: CORRECT in every state of a ONE_SHOT or DELAYED channel; v is its signed operand. A
running counter takes the exact sum, clamped with CLAMPED; STARTING holds it, clamped to ±65,535; IDLE refuses. So the
action does to any state, and so does a RELEASE of this one action, where the tick's order puts no channel event before it
(log entry 33). -/
def Obligations.CorrectByState : Prop :=
  ∀ (a : PendingAction) (operand : Half) (s : State), a.action = .correct → a.operand = some operand →
    let takes := fun f : State → State => applyAction a s = f s ∧ (s.due.releasing = [a] → s.due.moments = [] →
      exec .release s = .next (f { s with due := { s.due with releasing := [], moments := [] } }))
    let ch := channelOf s a.channel
    let v := operand.toInt
    let sum := (ch.counter.toNat : Int) + v
    let record := fun (kind : RecordKind) (x : BitVec 32) =>
      writeRecord { kind := kind, time := s.ftu.time, channel := some a.channel, origin := some a.cause.origin,
                    tag := some a.cause.tag, sequence := a.cause.sequence, value := some x }
    ch.cfg.mode = .oneShot ∨ ch.cfg.mode = .delayed →
    (ch.state = .idle → takes (fun u => record .actionRefused 3 u)) ∧
    (ch.state = .starting → ch.held = none →
      takes (fun u => setChannel a.channel { ch with held := some v } u)) ∧
    (∀ h, ch.state = .starting → ch.held = some h →
      takes (fun u => setChannel a.channel
        { ch with held := some (max (-65535) (min 65535 (h + v))) } u)) ∧
    (ch.state = .active ∨ ch.state = .lead → 0 ≤ sum → sum ≤ 65535 →
      ∃ x : Half, (x.toNat : Int) = sum ∧ takes (fun u => setChannel a.channel { ch with counter := x } u)) ∧
    (ch.state = .active ∨ ch.state = .lead → sum < 0 →
      takes (fun u => record .clamped (BitVec.ofInt 32 sum) (setChannel a.channel { ch with counter := 0 } u))) ∧
    (ch.state = .active ∨ ch.state = .lead → 65535 < sum →
      takes (fun u => record .clamped (BitVec.ofInt 32 sum) (setChannel a.channel { ch with counter := 0xFFFF } u)))

/-- R65, R109, R130: LOAD_A and LOAD_B set the working value, and in a PAIRED channel that is running stage it; a LOAD_A
staged readies the pair, a LOAD_B does not. So the action does to any state, and so does a RELEASE of this one action,
where the tick's order puts no channel event before it (log entry 33). -/
def Obligations.LoadSetsOrStages : Prop :=
  ∀ (a : PendingAction) (v : Half) (s : State), a.operand = some v →
    let takes := fun f : State → State => applyAction a s = f s ∧ (s.due.releasing = [a] → s.due.moments = [] →
      exec .release s = .next (f { s with due := { s.due with releasing := [], moments := [] } }))
    let ch := channelOf s a.channel
    let staging := ch.cfg.mode = .paired ∧ ch.state ∉ [.disabled, .idle, .starting]
    (a.action = .loadA → ch.cfg.mode ∈ [.oneShot, .delayed, .repeating, .paired, .qualify] →
      (staging → takes (fun u => setChannel a.channel { ch with stagedA := some v, pairReady := true } u)) ∧
      (¬ staging → takes (fun u => setChannel a.channel { ch with workA := v } u))) ∧
    (a.action = .loadB → ch.cfg.mode ∈ [.delayed, .paired] →
      (staging → takes (fun u => setChannel a.channel { ch with stagedB := some v } u)) ∧
      (¬ staging → takes (fun u => setChannel a.channel { ch with workB := v } u)))

/-! ### The trigger table and the schedule -/

/-- R62, R63, R67 to R71: an entry of a walk. One that is not valid, has another tag or whose filter rejects the origin
has no effect; a FRAME source without a value writes NO_VALUE; any other match derives its action, due at the
reference time plus the offset, with MATCH before its placement when the note flag is set. The walk takes the entries in
index order, each placed before the next. What a walk derives, without placing it, is the same actions, and so is what it
applies to a channel at once (R79, R80). What comes before a walk disturbs it where one of these would find its channel in
another state, at another output level or with other staged values, or would read there another working A (an ARM that
retriggers), counter or held correction (a CORRECT) or counter (a SNAP) (R112, R116, R117; log entry 5). -/
def Obligations.WalkDerivesActions : Prop :=
  (∀ (n : Notice) (i : Nat) (e : TrigEntry) (s : State),
    let accepts := match e.filter with
      | .any => True
      | .self => n.origin = s.params.id
      | .remote => n.origin ≠ s.params.id
      | .station x => n.origin = x
    let matching := e.valid = true ∧ e.tag = n.tag ∧ accepts
    let record := fun (kind : RecordKind) (v : BitVec 32) =>
      writeRecord { kind := kind, time := s.ftu.time, channel := some e.channel, origin := some n.origin,
                    tag := some n.tag, sequence := n.sequence, value := some v }
    let action := fun operand : Option Half => PendingAction.mk (n.reference + e.offset.setWidth 32) e.channel e.action
      operand { origin := n.origin, tag := n.tag, sequence := n.sequence, entry := BitVec.ofNat 8 i }
    let derive := fun operand : Option Half => placeAction (action operand)
      (if e.note then record .matched (n.reference + e.offset.setWidth 32) s else s)
    (¬ matching → walkEntry n i e s = s) ∧
    (matching → e.source = .frame → n.value = none → walkEntry n i e s = record .noValue (BitVec.ofNat 32 i) s) ∧
    (∀ v, matching → e.source = .frame → n.value = some v → walkEntry n i e s = derive (some v)) ∧
    (matching → e.source = .fixed → walkEntry n i e s = derive (some e.fixed)) ∧
    (matching → e.source = .noOperand → walkEntry n i e s = derive none)) ∧
  (∀ (n : Notice) (s : State), walkNotice n s =
    s.table.zipIdx.foldl (fun t x => walkEntry n x.2 x.1 t) s) ∧
  (∀ (n : Notice) (s : State) (a : PendingAction), a ∈ derivedActions n s ↔
    ∃ (i : Nat) (e : TrigEntry) (operand : Option Half), s.table[i]? = some e ∧ entryMatches s.params.id e n = true ∧
      (e.source = .noOperand ∧ operand = none ∨ e.source = .fixed ∧ operand = some e.fixed ∨
        ∃ v, e.source = .frame ∧ n.value = some v ∧ operand = some v) ∧
      a = { due := n.reference + e.offset.setWidth 32, channel := e.channel, action := e.action, operand := operand,
            cause := { origin := n.origin, tag := n.tag, sequence := n.sequence, entry := BitVec.ofNat 8 i } }) ∧
  ∀ (o : Occurrence) (c : ChannelId) (s : State),
    let n : Notice := { origin := s.params.id, sequence := none, tag := o.tag, value := o.value, reference := o.time }
    (placesAction o s = true ↔ derivedActions n s ≠ []) ∧
    (∀ a, a ∈ actionsAt c s o ↔ a ∈ derivedActions n s ∧ a.channel = c ∧ 0 ≤ lateness a.due s.ftu.time ∧
      lateness a.due s.ftu.time ≤ s.params.lateLimit.toNat) ∧
    ∀ t : State,
      let old := channelOf s c
      let new := channelOf t c
      disturbs c o s t = false ↔ ∀ a ∈ actionsAt c s o,
        new.state = old.state ∧ new.output = old.output ∧ new.stagedA = old.stagedA ∧ new.stagedB = old.stagedB ∧
        new.pairReady = old.pairReady ∧
        (a.action = .arm → old.cfg.mode = .oneShot → old.state = .active → new.workA = old.workA) ∧
        (a.action = .correct → new.counter = old.counter ∧ new.held = old.held) ∧
        (a.action = .snap → new.counter = old.counter)

/-- R77, R79 to R82: the outcomes of placement by lateness and room. -/
def Obligations.PlacementByLateness : Prop :=
  ∀ (a : PendingAction) (s : State),
    let late := lateness a.due s.ftu.time
    let record := fun (kind : RecordKind) (b : PendingAction) (v : BitVec 32) =>
      writeRecord { kind := kind, time := s.ftu.time, channel := some b.channel, origin := some b.cause.origin,
                    tag := some b.cause.tag, sequence := b.cause.sequence, value := some v }
    (late < 0 → s.schedule.length < 32 →
      placeAction a s = { s with schedule := insertAction s.ftu.time a s.schedule }) ∧
    (∀ front last, late < 0 → s.schedule = front ++ [last] → s.schedule.length = 32 →
      distance s.ftu.time a < distance s.ftu.time last →
      placeAction a s = record .displaced last last.due { s with schedule := insertAction s.ftu.time a front }) ∧
    (∀ front last, late < 0 → s.schedule = front ++ [last] → s.schedule.length = 32 →
      distance s.ftu.time last ≤ distance s.ftu.time a → placeAction a s = record .refused a a.due s) ∧
    (late = 0 → placeAction a s = applyAction a s) ∧
    (0 < late → late ≤ s.params.lateLimit.toNat →
      placeAction a s = applyAction a (record .late a (BitVec.ofInt 32 late) s)) ∧
    ((s.params.lateLimit.toNat : Int) < late → placeAction a s = record .expired a (BitVec.ofInt 32 late) s)

/-- R78: an action of negative lateness, placed while fewer than 32 are held, stands after every entry whose distance is
no greater than its own and before every entry whose distance is greater; the list grows by one, in order still, and
the schedule writes no record. -/
def Obligations.InsertionKeepsOrder : Prop :=
  ∀ (a : PendingAction) (s : State), lateness a.due s.ftu.time < 0 → s.schedule.length < 32 →
    s.schedule.Pairwise (fun x y => distance s.ftu.time x ≤ distance s.ftu.time y) →
    ∃ front back, s.schedule = front ++ back ∧ placeAction a s = { s with schedule := front ++ a :: back } ∧
      (∀ x ∈ front, distance s.ftu.time x ≤ distance s.ftu.time a) ∧
      (∀ x ∈ back, distance s.ftu.time a < distance s.ftu.time x)

/-! ### Marks -/

/-- The FTU's part and the roster's part of a peer's MARK are taken in the order the sender gives (R41, R46, R49; log
entry 7). A hard set is taken after all that the present instant has reached. A mark that begins a stall is taken after a
mid-epoch instant that is still due, which it satisfies first where it names the boundary judged there. R18, R22: an
in-window mark in DISCORD is taken after a boundary that is still due, which was reached in the spell and raises no
request. Any other mark is taken as the instant stands (log entry 4). -/
def Obligations.MarkIsDelivered : Prop :=
  ∀ (origin : StationId) (m : MarkFields) (order : MarkOrder) (s : State),
    joined s = true → s.liu.rx = .taking → s.liu.tx = .ready → validOrigin origin = true → origin ≠ s.params.id →
    let u := { s with
      liu := { s.liu with rx := .seeking, recessive := 0 }
      counters := { s.counters with framesReceived := satInc s.counters.framesReceived } }
    let base := if order.rosterFirst then hearPeer origin u else u
    let v := beforeMark m order base
    let d := signedDifference (m.boundary + m.age.setWidth 32 + s.params.latency.setWidth 32) s.ftu.time
    let judged := s.ftu.time - (1#32 <<< s.params.k.toNat) >>> 1
    let stalls := s.ftu.station ∈ [.synced, .holdover, .discord] ∧ d < 0 ∧ -(s.params.window.toNat : Int) ≤ d
    let here := if s.ftu.station = .discord ∧ inWindow s m = true then takeBoundary base else base
    ∃ w, exec (.markArrival origin m order) s = .next (if order.rosterFirst then w else hearPeer origin w) ∧
      (v.ftu.station = .listening → w = adopt origin m v) ∧
      (v.ftu.station = .synced ∨ v.ftu.station = .holdover → inWindow v m = true → w = followMark origin m order v) ∧
      (v.ftu.station = .synced ∨ v.ftu.station = .holdover → inWindow v m = false → w = enterDiscord origin m v) ∧
      (v.ftu.station = .discord → inWindow v m = true → w = endDiscord origin m order v) ∧
      (v.ftu.station = .discord → inWindow v m = false → w = countDiscord origin m v) ∧
      (hardSets s m = true ↔ s.ftu.station = .listening ∨
        s.ftu.station = .discord ∧ inWindow s m = false ∧ 2 ≤ s.ftu.discordCount.toNat) ∧
      (hardSets s m = true → v = settle base) ∧
      (hardSets s m = false → stalls → s.due.midEpoch = true → v = midEpochAt s.ftu.time order.agingFirst { here with
        ftu := { here.ftu with marker := if m.boundary = judged then some m.boundary else here.ftu.marker }
        due := { here.due with midEpoch := false } }) ∧
      (hardSets s m = false → ¬ (stalls ∧ s.due.midEpoch = true) → v = here) ∧
      (s.ftu.station = .discord → inWindow s m = true →
        here.ftu = base.ftu ∧ here.pub = base.pub ∧ here.due.ftuBoundary = false)

/-- R11, R12, R19, R49, R88: adoption and resync: T at the mark's reference, the boundary satisfied, no stall, the
schedule flushed with its count, every entry of the roster refreshed, and SYNCED; the record of the one bears the
origin, of the other the origin and the offset the mark had. -/
def Obligations.HardSetTakesMarkTime : Prop :=
  ∀ (origin : StationId) (m : MarkFields) (s : State),
    let r := m.boundary + m.age.setWidth 32 + s.params.latency.setWidth 32
    let u := { s with
      ftu := { s.ftu with time := r, stall := 0, marker := some m.boundary, station := .synced, holdoverCount := 0,
                          discordCount := 0 }
      schedule := []
      roster := s.roster.map fun e => { e with lastHeard := r >>> s.params.k.toNat } }
    let v := if s.schedule = [] then u else
      writeRecord { kind := .flushed, time := r, value := some (BitVec.ofNat 32 s.schedule.length) } u
    adopt origin m s = writeRecord { kind := .synced, time := r, origin := some origin } v ∧
    (s.ftu.discordCount = 2 → countDiscord origin m s =
      writeRecord { kind := .resync, time := r, origin := some origin,
                    value := some (BitVec.ofInt 32 (signedDifference r s.ftu.time)) } v) ∧
    (s.ftu.discordCount.toNat < 2 → countDiscord origin m s =
      { s with ftu := { s.ftu with discordCount := s.ftu.discordCount + 1 } })

/-- R9, R14, R16, R18, R23: an in-window mark satisfies its boundary, ends HOLDOVER or DISCORD with SYNCED, withdraws the
own request for that boundary (in SYNCED and HOLDOVER), and sets the stall remainder to |d| when T is ahead and to 0
otherwise; then a mark ahead of T (d > 0) makes a forward step by d, and any other leaves T.
R17: an out-of-window mark in SYNCED or HOLDOVER: DISCORD with count 1, no stall, no holdover count, the own MARK
request withdrawn, and DISCORD_ENTER with the origin and the offset; T and the marker stay. -/
def Obligations.MarkInOrOutOfWindow : Prop :=
  ∀ (origin : StationId) (m : MarkFields) (order : MarkOrder) (s : State),
    let d := signedDifference (m.boundary + m.age.setWidth 32 + s.params.latency.setWidth 32) s.ftu.time
    let lost := fun a : Attempt => if a.item = .mark then { a with pending := false } else a
    let synced := { s.ftu with
      station := .synced, marker := some m.boundary, stall := if d < 0 then BitVec.ofNat 16 d.natAbs else 0 }
    let same := s.pub.markSlot.any fun r => r.boundary == m.boundary
    let u := { s with
      ftu := synced
      pub := { s.pub with markSlot := if same then none else s.pub.markSlot }
      liu := { s.liu with attempt := if same then s.liu.attempt.map lost else s.liu.attempt } }
    let after := fun t : State => if 0 < d then forwardStep d.natAbs order t else t
    (s.ftu.station = .synced → followMark origin m order s = after u) ∧
    (s.ftu.station = .holdover →
      followMark origin m order s =
        after (writeRecord { kind := .synced, time := s.ftu.time, origin := some origin,
                             value := some (s.ftu.holdoverCount.setWidth 32) }
          { u with ftu := { synced with holdoverCount := 0 } })) ∧
    (s.ftu.station = .discord → endDiscord origin m order s =
      after (writeRecord { kind := .synced, time := s.ftu.time, origin := some origin }
        { s with ftu := { synced with discordCount := 0 } })) ∧
    (inWindow s m = true ↔ -(s.params.window.toNat : Int) ≤ d ∧ d ≤ s.params.window.toNat) ∧
    enterDiscord origin m s =
      writeRecord { kind := .discordEnter, time := s.ftu.time, origin := some origin, value := some (BitVec.ofInt 32 d) }
        { s with
          ftu := { s.ftu with station := .discord, discordCount := 1, holdoverCount := 0, stall := 0 }
          pub := { s.pub with markSlot := none }
          liu := { s.liu with attempt := s.liu.attempt.map lost } }

/-- R4, R15, R22, R85, R87: a forward step by d from T: the entries due in T + 1 to T + d leave the list and are applied
at T + d in list order, each counted as stepped, before or after the boundary and the mid-epoch instant that the step
reached; a boundary counts for the mute and raises no request. T moves by d, and no tap instant is produced. Which
comes first the sender says (log entry 7), and the records bear the T after the step (log entry 8). What the present
instant has left is taken before the step (the model's choice, log entry 4). R22, R37: the boundary withdraws a request
for an earlier one; it is one of a mute spell's boundaries, and the last of them ends the spell with LINE_UNMUTE, with the
queue entry that caused it back at no fault attempts (log entry 28). -/
def Obligations.ForwardStepReleases : Prop :=
  (∀ (d : Nat) (order : MarkOrder) (s : State), forwardStep d order s = forwardStep d order (settle s)) ∧
  (∀ (b : Time) (s : State),
    let lost := fun a : Attempt => if a.item = .mark then { a with pending := false } else a
    (s.liu.muted = false → muteBoundary s = s) ∧
    (s.liu.muted = true → 2 ≤ s.liu.muteLeft.toNat →
      muteBoundary s = { s with liu := { s.liu with muteLeft := s.liu.muteLeft - 1 } }) ∧
    (s.liu.muted = true → s.liu.muteLeft.toNat ≤ 1 →
      muteBoundary s = writeRecord { kind := .lineUnmute, time := s.ftu.time } { s with
        liu := { s.liu with muted := false, muteLeft := 0 }
        pub := { s.pub with queue := s.pub.queue.map fun e => if 8 ≤ e.faults then { e with faults := 0 } else e } }) ∧
    (s.pub.markSlot = none → withdrawEarlier b s = s) ∧
    (∀ r, s.pub.markSlot = some r → 0 ≤ signedDifference r.boundary b → withdrawEarlier b s = s) ∧
    (∀ r, s.pub.markSlot = some r → signedDifference r.boundary b < 0 → withdrawEarlier b s = { s with
      pub := { s.pub with markSlot := none }, liu := { s.liu with attempt := s.liu.attempt.map lost } })) ∧
  ∀ (d : Nat) (order : MarkOrder) (s : State), 1 ≤ d → d ≤ s.params.window.toNat → settled s →
    let t := s.ftu.time + BitVec.ofNat 32 d
    let l := 1#32 <<< s.params.k.toNat
    let b := t - (t &&& (l - 1))
    let m := (t - l >>> 1) - ((t - l >>> 1) &&& (l - 1)) + l >>> 1
    let out := s.schedule.filter fun a => decide (1 ≤ distance s.ftu.time a ∧ distance s.ftu.time a ≤ d)
    let release := fun u : State => applyAll out { u with
      schedule := u.schedule.filter fun a => !decide (1 ≤ distance s.ftu.time a ∧ distance s.ftu.time a ≤ d)
      counters := { u.counters with stepped := satAdd u.counters.stepped out.length } }
    let atBoundary := fun u : State => if (t - b).toNat < d then
      muteBoundary (if lockedOn u then withdrawEarlier b u else u) else u
    let atMidEpoch := fun u : State => if (t - m).toNat < d then midEpochAt m order.agingFirst u else u
    let u := { s with ftu := { s.ftu with time := t } }
    forwardStep d order s =
      (if order.releaseFirst then atMidEpoch (atBoundary (release u)) else release (atMidEpoch (atBoundary u))) ∧
    (forwardStep d order s).ftu.time = t ∧
    ∀ c : ChannelId, (channelOf (forwardStep d order s) c).tapDue = false

/-! ### Frames from peers -/

/-- R53: a frame with the station's own id is counted as an own-id frame and discarded; a ROLL also writes ID_CLASH with
the own id as origin and no value. -/
def Obligations.OwnIdFramesSetAside : Prop :=
  ∀ (m : MarkFields) (order : MarkOrder) (e : EventFields) (r : RollFields) (s : State),
    joined s = true → s.liu.rx = .taking → s.liu.tx = .ready → validOrigin s.params.id = true →
    let u := { s with
      liu := { s.liu with rx := .seeking, recessive := 0 }
      counters := { s.counters with
        framesReceived := if s.counters.framesReceived = 0xFFFF then 0xFFFF else s.counters.framesReceived + 1
        ownId := if s.counters.ownId = 0xFFFF then 0xFFFF else s.counters.ownId + 1 } }
    exec (.markArrival s.params.id m order) s = .next u ∧
    (e.repeatIndex.toNat ≤ 2 → exec (.eventArrival s.params.id e) s = .next u) ∧
    (1 ≤ r.syncState.toNat → r.syncState.toNat ≤ 4 → r.rosterSize.toNat ≤ 32 → r.occupancy.toNat ≤ 32 →
      exec (.rollArrival s.params.id r) s =
        .next (writeRecord { kind := .idClash, time := s.ftu.time, origin := some s.params.id } u))

/-- R46, R47: a frame from a peer refreshes its entry; without one it creates it in ascending order, with PEER_JOINED,
where there is room; in a full roster it changes nothing. -/
def Obligations.PeerUpkeep : Prop :=
  ∀ (origin : StationId) (s : State), s.roster.Pairwise (fun a b => a.origin.toNat < b.origin.toNat) →
    let epoch := s.ftu.time >>> s.params.k.toNat
    ((∃ e ∈ s.roster, e.origin = origin) → hearPeer origin s =
      { s with roster := s.roster.map fun e => if e.origin = origin then { e with lastHeard := epoch } else e }) ∧
    ((∀ e ∈ s.roster, e.origin ≠ origin) → s.roster.length < 32 →
      ∃ front back, s.roster = front ++ back ∧ (∀ e ∈ front, e.origin.toNat < origin.toNat) ∧
        (∀ e ∈ back, origin.toNat < e.origin.toNat) ∧
        hearPeer origin s = writeRecord { kind := .peerJoined, time := s.ftu.time, origin := some origin }
          { s with roster := front ++ { origin := origin, joinedEpoch := epoch, lastHeard := epoch,
                                        lastSequence := none, reported := none } :: back }) ∧
    ((∀ e ∈ s.roster, e.origin ≠ origin) → 32 ≤ s.roster.length → hearPeer origin s = s)

/-- R54, R55, R57, R58: an EVENT from a peer after the upkeep of R46 and R47: unlisted without an entry, else judged by
the restart flag and the distance of its sequence; a duplicate or stale one is only counted; an accepted one sets the
last sequence and walks its notice, timed in SYNCED and HOLDOVER when its flag is set and untimed, at T, otherwise. A
release still due is taken before the walk (R84, R89), and that it comes behind the upkeep and its record is the model's
choice (log entry 5). That an EVENT after the tick to 2L and before
LISTEN_END finds LISTENING, and so is untimed, is the model's choice (log entry 25). -/
def Obligations.EventIsJudged : Prop :=
  ∀ (origin : StationId) (e : EventFields) (s : State),
    joined s = true → s.liu.rx = .taking → s.liu.tx = .ready → validOrigin origin = true → e.repeatIndex.toNat ≤ 2 →
    origin ≠ s.params.id →
    let u := hearPeer origin { s with
      liu := { s.liu with rx := .seeking, recessive := 0 }
      counters := { s.counters with framesReceived := satInc s.counters.framesReceived } }
    let c := u.counters
    let timed := e.timed = true ∧ (s.ftu.station = .synced ∨ s.ftu.station = .holdover)
    let notice : Notice := { origin := origin, sequence := some e.sequence, tag := e.tag, value := e.value,
                             reference := if timed then e.occurrence else s.ftu.time }
    let accepted := fun t => exec (.eventArrival origin e) s = .next (walkNotice notice (releaseDue { t with
      roster := t.roster.map fun x => if x.origin = origin then { x with lastSequence := some e.sequence } else x
      counters := if timed then c else { c with untimed := satInc c.untimed } }))
    ((∀ x ∈ u.roster, x.origin ≠ origin) →
      exec (.eventArrival origin e) s = .next { u with counters := { c with unlisted := satInc c.unlisted } }) ∧
    ∀ x, u.roster.find? (fun x => x.origin == origin) = some x →
      (x.lastSequence = none → accepted u) ∧
      (∀ last, x.lastSequence = some last → e.sequence = last →
        exec (.eventArrival origin e) s = .next { u with counters := { c with duplicates := satInc c.duplicates } }) ∧
      (∀ last, x.lastSequence = some last → e.sequence ≠ last → e.restart = true → accepted u) ∧
      (∀ last, x.lastSequence = some last → e.restart = false → 1 ≤ (e.sequence - last).toNat →
        (e.sequence - last).toNat ≤ 127 → accepted u) ∧
      (∀ last, x.lastSequence = some last → e.restart = false → 128 ≤ (e.sequence - last).toNat →
        exec (.eventArrival origin e) s = .next { u with counters := { c with stale := satInc c.stale } })

/-- R46, R47, R52: a ROLL from a peer that has an entry after the upkeep replaces its three reported fields together;
one that finds the roster full and no entry changes nothing else and writes ROSTER_FULL with its origin. -/
def Obligations.RollReports : Prop :=
  ∀ (origin : StationId) (r : RollFields) (s : State),
    joined s = true → s.liu.rx = .taking → s.liu.tx = .ready → validOrigin origin = true → origin ≠ s.params.id →
    r.rosterSize.toNat ≤ 32 → r.occupancy.toNat ≤ 32 →
    let u := hearPeer origin { s with
      liu := { s.liu with rx := .seeking, recessive := 0 }
      counters := { s.counters with framesReceived := satInc s.counters.framesReceived } }
    ((∀ x ∈ u.roster, x.origin ≠ origin) → 1 ≤ r.syncState.toNat → r.syncState.toNat ≤ 4 →
      exec (.rollArrival origin r) s =
        .next (writeRecord { kind := .rosterFull, time := s.ftu.time, origin := some origin } u)) ∧
    ∀ state, (r.syncState, state) ∈ [(1, StationState.listening), (2, .synced), (3, .holdover), (4, .discord)] →
      (∃ x ∈ u.roster, x.origin = origin) →
      exec (.rollArrival origin r) s = .next { u with roster := u.roster.map fun x =>
        if x.origin = origin then
          { x with reported := some { state := state, rosterSize := r.rosterSize, occupancy := r.occupancy } }
        else x }

/-- R38 to R41: class code 11, a recessive fill bit, and a good check over fields that break R40 make a frame malformed;
a failing check makes a check error whatever the fields; fewer bits are no frame yet. A frame that is discarded is
counted once, as malformed or as a check error, and delivers nothing; outside TAKING nothing is received (log entry 3). -/
def Obligations.DiscardsAreCounted : Prop :=
  (∀ more : List LineBit, receive (true :: true :: more) = .malformed) ∧
  (∀ (f : Frame) (check : Byte) (more : List LineBit), check ≠ checkOf (contentBits f) →
    receive (withFill 0 (contentBits f ++ bitsOf check) ++ more) = .checkError) ∧
  (∀ (f : Frame) (more : List LineBit), frameWellFormed f = false →
    receive (withFill 0 (frameBits f) ++ more) = .malformed) ∧
  (∀ (f : Frame) (check : Byte) (front rest more : List LineBit), contentBits f ++ bitsOf check = front ++ rest →
    rest ≠ [] → withFill 0 (front ++ rest) = withFill 0 front ++ false :: withFill 0 rest →
    receive (withFill 0 front ++ true :: more) = .malformed) ∧
  (∀ (f : Frame) (check : Byte) (k : Nat), k < (withFill 0 (contentBits f ++ bitsOf check)).length →
    receive ((withFill 0 (contentBits f ++ bitsOf check)).take k) = .unfinished) ∧
  (∀ (bits : List LineBit) (s : State), joined s = true → s.liu.rx = .taking → s.liu.tx = .ready →
    (receive bits = .malformed → exec (.frameDiscarded bits) s = .next { s with
      liu := { s.liu with rx := .seeking, recessive := 0 }
      counters := { s.counters with malformed := satInc s.counters.malformed } }) ∧
    (receive bits = .checkError → exec (.frameDiscarded bits) s = .next { s with
      liu := { s.liu with rx := .seeking, recessive := 0 }
      counters := { s.counters with checkErrors := satInc s.counters.checkErrors } }) ∧
    (∀ f, receive bits = .good f → exec (.frameDiscarded bits) s = .next s) ∧
    (receive bits = .unfinished → exec (.frameDiscarded bits) s = .next s)) ∧
  (∀ (origin : StationId) (m : MarkFields) (order : MarkOrder) (e : EventFields) (r : RollFields) (s : State),
    joined s = true → s.liu.rx = .taking → s.liu.tx = .ready →
    let u := { s with
      liu := { s.liu with rx := .seeking, recessive := 0 }
      counters := { s.counters with malformed := satInc s.counters.malformed } }
    (validOrigin origin = false → exec (.markArrival origin m order) s = .next u) ∧
    (validOrigin origin = false ∨ 2 < e.repeatIndex.toNat → exec (.eventArrival origin e) s = .next u) ∧
    (validOrigin origin = false ∨ r.syncState = 0 ∨ 4 < r.syncState.toNat ∨ 32 < r.rosterSize.toNat ∨
      32 < r.occupancy.toNat → exec (.rollArrival origin r) s = .next u)) ∧
  (∀ (bits : List LineBit) (origin : StationId) (m : MarkFields) (order : MarkOrder) (e : EventFields)
    (r : RollFields) (s : State), joined s = false ∨ s.liu.rx ≠ .taking ∨ s.liu.tx ≠ .ready →
    exec (.frameDiscarded bits) s = .next s ∧ exec (.markArrival origin m order) s = .next s ∧
      exec (.eventArrival origin e) s = .next s ∧ exec (.rollArrival origin r) s = .next s)

/-! ### The line -/

/-- R31, R38, R157: the tenth recessive bit time makes the line idle for a joined station in SEEKING with no frame of its
own, and the arbiter is asked, which offers the MARK request, then the head of the queue, then the ROLL request, and
nothing while muted; another station's start bit begins a frame at the receiver and ends the offer. Where no line can
become idle or no frame begin, nothing changes (log entry 3). R26, R38: bit time by bit time, the count of recessive bit
times: it grows in SEEKING and WAITING, not in TAKING, a dominant bit resets it, and it makes the line idle where it
reaches 10; a frame sent by another station is a start bit and an arrival. That a LINE_IDLE without bit times stands for the
tenth, and that the count stays at 10, is the model's choice (log entry 9). -/
def Obligations.IdleLineAndStartBit : Prop :=
  (∀ (b : LineBit) (l : Liu),
    (b = false → countBit b l = { l with recessive := 0 }) ∧ (b = true → l.rx = .taking → countBit b l = l) ∧
    (b = true → l.rx ≠ .taking → countBit b l = { l with recessive := min (l.recessive + 1) 10 })) ∧
  (∀ (i : BitTime) (f : FrameBits) (s : State), s.liu.attempt = none →
    let counted := { s with liu := countBit i.level s.liu }
    let taken := f.taken ++ [i.level]
    let does := fun (commands : List Instr) (t : State) (taken : List LineBit) =>
      bitTime i (s, f) = (commands, t, { taken := taken, sent := f.sent + 1 })
    (s.liu.rx = .seeking → joined s = false ∨ i.level = false ∨ s.liu.recessive + 1 ≠ 10 → does [] counted []) ∧
    (∀ t, s.liu.rx = .seeking → joined s = true → i.level = true → s.liu.recessive + 1 = 10 →
      exec .lineIdle counted = .next t → does [.lineIdle] t []) ∧
    (s.liu.rx = .waiting → s.liu.offer = none → i.level = true → does [] counted []) ∧
    (∀ t, s.liu.rx = .waiting → s.liu.offer = none ∨ i.early = true → i.level = false →
      exec .startBit counted = .next t → does [.startBit] t []) ∧
    (s.liu.rx = .taking → joined s = true → s.liu.tx = .ready →
      (receive taken = .unfinished → does [] counted taken) ∧
      ∀ c t, (receive taken = .malformed ∨ receive taken = .checkError) ∧ c = .frameDiscarded taken ∨
          (∃ o m, receive taken = .good ⟨o, .mark m⟩ ∧ c = .markArrival o m i.order) ∨
          (∃ o e, receive taken = .good ⟨o, .event e⟩ ∧ c = .eventArrival o e) ∨
          (∃ o r, receive taken = .good ⟨o, .roll r⟩ ∧ c = .rollArrival o r) →
        exec c counted = .next t → does [c] t taken)) ∧
  (∀ (order : MarkOrder) (f : FrameBits) (s : State), joined s = true → s.liu.attempt = none →
    (∀ n, n ≤ 10 → s.liu.rx = .seeking → s.liu.recessive = 0 →
      (bitTimes (List.replicate n { level := true, early := false, order := order }) (s, f)).1 =
        if n = 10 then [.lineIdle] else []) ∧
    ∀ g : Frame, frameWellFormed g = true → s.liu.rx = .waiting → s.liu.tx = .ready → s.liu.offer = none →
      (bitTimes ((lineBits g).map fun b => { level := b, early := false, order := order }) (s, f)).1 =
        [.startBit, match g.body with
          | .mark m => .markArrival g.origin m order
          | .event e => .eventArrival g.origin e
          | .roll r => .rollArrival g.origin r]) ∧
  ∀ s : State,
    (joined s = true → s.liu.rx = .seeking → s.liu.tx = .ready →
      exec .lineIdle s = .next { s with liu := { s.liu with
        rx := .waiting
        recessive := 10
        offer :=
          if s.liu.muted then none
          else match s.pub.markSlot, s.pub.queue, s.pub.rollSlot with
            | some r, _, _ => some (.mark r.boundary)
            | none, _ :: _, _ => some .event
            | none, [], some _ => some .roll
            | none, [], none => none } }) ∧
    (joined s = false ∨ s.liu.rx ≠ .seeking ∨ s.liu.tx ≠ .ready → exec .lineIdle s = .next s) ∧
    (joined s = true → s.liu.rx = .waiting →
      exec .startBit s = .next { s with liu := { s.liu with rx := .taking, recessive := 0, offer := none } }) ∧
    (joined s = false ∨ s.liu.rx ≠ .waiting → exec .startBit s = .next s)

/-- R24, R31, R51, R153, R154, R157: the attempt of the offered item begins with its frame's contents taken now: a MARK
with its age, an EVENT with its sequence and flags, a ROLL with the station's state and occupancies. A MARK older than
W is withdrawn instead, and what comes next in the arbiter's order begins (log entry 12). That an offered ROLL replaced
before its attempt is sent as the newer request, and what becomes of an offered MARK that a newer one has replaced, is the
model's choice (log entry 20). So are that a ROLL attempt after the tick to 2L and before LISTEN_END sends LISTENING (log
entry 25), and that the receiver is in TAKING, with its count at 0, from the beginning of the attempt (log entries 9 and 34).
Outside READY, on a line that is not idle or while muted, no attempt begins (log entry 3). -/
def Obligations.AttemptTakesContents : Prop :=
  (∀ s : State, joined s = false ∨ s.liu.tx ≠ .ready ∨ s.liu.rx ≠ .waiting ∨ s.liu.muted = true →
    exec .transmissionAttempt s = .next s) ∧
  ∀ s : State, joined s = true → s.liu.tx = .ready → s.liu.rx = .waiting → s.liu.muted = false →
    let sending := fun (item : TxItem) (body : FrameBody) (p : Bool) (l : Liu) => { l with
      tx := .head, rx := .taking, recessive := 0, offer := none,
      attempt := some { item := item, frame := { origin := s.params.id, body := body }, won := false, pending := p } }
    let roll := FrameBody.roll
      { syncState := (stationCode s.ftu.station).setWidth 3, rosterSize := BitVec.ofNat 6 s.roster.length,
        occupancy := BitVec.ofNat 6 s.schedule.length }
    (s.liu.offer = none → exec .transmissionAttempt s = .next s) ∧
    (∀ b, s.liu.offer = some (.mark b) → (s.ftu.time - b).toNat ≤ s.params.window.toNat →
      let body := FrameBody.mark { boundary := b, age := (s.ftu.time - b).setWidth 16 }
      let p := s.pub.markSlot.any fun r => r.boundary == b
      exec .transmissionAttempt s = .next { s with liu := sending .mark body p s.liu }) ∧
    (∀ e es, s.liu.offer = some .event → s.pub.queue = e :: es →
      let e' := if e.sequence = none then
        { e with sequence := some (s.pub.ownSequence + 1), restart := s.pub.restartPending } else e
      let body := FrameBody.event
        { timed := e.timed, restart := e'.restart, repeatIndex := BitVec.ofNat 2 e.copiesSent,
          sequence := e'.sequence.getD 0, tag := e.tag, occurrence := e.occurrence, value := e.value }
      let pub := { s.pub with
        queue := e' :: es
        ownSequence := if e.sequence = none then s.pub.ownSequence + 1 else s.pub.ownSequence
        restartPending := if e.sequence = none then false else s.pub.restartPending }
      exec .transmissionAttempt s = .next { s with pub := pub, liu := sending .event body true s.liu }) ∧
    (s.liu.offer = some .roll →
      exec .transmissionAttempt s = .next { s with liu := sending .roll roll s.pub.rollSlot.isSome s.liu }) ∧
    (∀ b, s.liu.offer = some (.mark b) → s.params.window.toNat < (s.ftu.time - b).toNat →
      let slot := if s.pub.markSlot.any fun r => r.boundary == b then none else s.pub.markSlot
      let u := { s with liu := { s.liu with offer := none }, pub := { s.pub with markSlot := slot } }
      s.liu.attempt = none →
      (s.pub.queue = [] → s.pub.rollSlot = none → exec .transmissionAttempt s = .next u) ∧
      (s.pub.queue = [] → s.pub.rollSlot ≠ none →
        exec .transmissionAttempt s = .next { u with liu := sending .roll roll true u.liu }) ∧
      (s.pub.queue ≠ [] →
        exec .transmissionAttempt s = exec .transmissionAttempt { u with liu := { u.liu with offer := some .event } }))

/-- R32, R42: at a head position where the frame drives recessive, arbitration can be lost, which changes no item and
writes no record: the transmitter is READY and the receiver goes on. With every position matched the attempt has won,
and an attempt in HEAD enters BODY. The end of a draining frame, also by a loss, leaves OFF, or READY after a COMMIT,
and reports no outcome (R42, R43). The position and the phase are the sender's (log entries 11 and 22). Bit time by bit
time, these events follow from the levels driven and read back, and an own frame read back whole is an attempt, won and
completed (R31 to R34). -/
def Obligations.ArbitrationAndDraining : Prop :=
  (∀ (a : Attempt) (n : Nat) (b driven : LineBit) (s : State), s.liu.attempt = some a →
    (lineBits a.frame)[n]? = some driven →
    (driven = true → b = false → a.won = false → commandsOfSending n b s = [.lostArbitration n]) ∧
    (driven ≠ b → driven = false ∨ a.won = true → commandsOfSending n b s = [.bitFault n]) ∧
    (driven = b → a.won = false → n = 8 → commandsOfSending n b s = [.wonArbitration]) ∧
    (driven = b → n + 1 < (lineBits a.frame).length → a.won = true ∨ n ≠ 8 → commandsOfSending n b s = []) ∧
    (driven = b → n + 1 = (lineBits a.frame).length → a.won = true → commandsOfSending n b s =
      [if s.liu.tx = .draining then .drainingEnd else .completed])) ∧
  (∀ (a : Attempt) (order : MarkOrder) (f : FrameBits) (s t : State), joined s = true → s.liu.tx = .ready →
    s.liu.rx = .waiting → s.liu.muted = false → s.liu.offer ≠ none → s.liu.attempt = none →
    exec .transmissionAttempt { s with liu := { s.liu with recessive := 0 } } = .next t → t.liu.attempt = some a →
    (bitTimes ((lineBits a.frame).map fun b => { level := b, early := false, order := order }) (s, f)).1 =
      [.transmissionAttempt, .wonArbitration, .completed]) ∧
  (∀ s : State,
    (s.liu.tx = .draining → exec .drainingEnd s = .next { s with liu := { s.liu with
      tx := if s.ftu.station = .detached then .off else .ready, attempt := none } }) ∧
    (s.liu.tx ≠ .draining → exec .drainingEnd s = .next s)) ∧
  ∀ (a : Attempt) (position : Nat) (s : State), s.liu.attempt = some a →
    let canLose := 1 ≤ position ∧ position ≤ 8 ∧ (lineBits a.frame)[position]? = some true ∧ a.won = false
    (canLose → s.liu.tx = .head →
      exec (.lostArbitration position) s = .next { s with liu := { s.liu with tx := .ready, attempt := none } }) ∧
    (canLose → s.liu.tx = .draining →
      exec (.lostArbitration position) s = .next { s with liu := { s.liu with
        tx := if joined s then .ready else .off, attempt := none } }) ∧
    (¬ canLose → exec (.lostArbitration position) s = .next s) ∧
    (s.liu.tx = .head →
      exec .wonArbitration s = .next { s with liu := { s.liu with
        tx := .body, attempt := some { a with won := true } } }) ∧
    (s.liu.tx = .draining →
      exec .wonArbitration s = .next { s with liu := { s.liu with attempt := some { a with won := true } } })

/-- R33, R36, R42: a bit fault can be at a dominant bit of positions 0 to 8 until the head is won, and at every later bit
of the frame as sent, fill bits included, after it; elsewhere nothing changes (log entry 11). At one the attempt ends,
the bit faults counter rises, and the fault attempts of a pending item rise by one. At 8 the station enters mute: both
slots empty, 16 boundaries, LINE_MUTE with value 8, the queue kept. A fault of a draining frame, or of an item no longer
pending (log entry 20), counts no attempt. The receiver is left as it was, after a fault at position 0 too (log entry 34). -/
def Obligations.BitFaultCountsAndMutes : Prop :=
  (∀ (bit : Nat) (s : State), s.liu.attempt = none ∨ s.liu.tx = .ready ∨ s.liu.tx = .off →
    exec (.bitFault bit) s = .next s) ∧
  ∀ (a : Attempt) (bit : Nat) (s : State), s.liu.attempt = some a →
    let canFault :=
      (a.won = false ∧ bit ≤ 8 ∧ (false :: withFill 0 (frameBits a.frame))[bit]? = some false) ∨
      (a.won = true ∧ 9 ≤ bit ∧ bit < (false :: withFill 0 (frameBits a.frame)).length)
    (¬ canFault → exec (.bitFault bit) s = .next s) ∧ (canFault →
    let u := { s with
      liu := { s.liu with tx := .ready, attempt := none }
      counters := { s.counters with bitFaults := satInc s.counters.bitFaults } }
    let mute := fun v : State => writeRecord { kind := .lineMute, time := s.ftu.time, value := some 8 } { v with
      liu := { v.liu with muted := true, muteLeft := 16, offer := none }
      pub := { v.pub with markSlot := none, rollSlot := none } }
    (s.liu.tx = .head ∨ s.liu.tx = .body → a.pending = false → exec (.bitFault bit) s = .next u) ∧
    (∀ e es, s.liu.tx = .head ∨ s.liu.tx = .body → a.pending = true → a.item = .event → s.pub.queue = e :: es →
      let v := { u with pub := { s.pub with queue := { e with faults := e.faults + 1 } :: es } }
      exec (.bitFault bit) s = .next (if 8 ≤ e.faults + 1 then mute v else v)) ∧
    (∀ r, s.liu.tx = .head ∨ s.liu.tx = .body → a.pending = true → a.item = .mark → s.pub.markSlot = some r →
      exec (.bitFault bit) s = .next (if 8 ≤ r.faults + 1 then mute u else
        { u with pub := { s.pub with markSlot := some { r with faults := r.faults + 1 } } })) ∧
    (∀ r, s.liu.tx = .head ∨ s.liu.tx = .body → a.pending = true → a.item = .roll → s.pub.rollSlot = some r →
      exec (.bitFault bit) s = .next (if 8 ≤ r.faults + 1 then mute u else
        { u with pub := { s.pub with rollSlot := some { faults := r.faults + 1 } } })) ∧
    (s.liu.tx = .draining →
      exec (.bitFault bit) s = .next { u with liu := { u.liu with tx := if joined s then .ready else .off } }))

/-- R25, R34, R155, R156: a completed frame: READY, the receiver back in SEEKING, nothing delivered. The head entry has
one copy more and no fault attempts, and leaves with its last copy; a MARK or ROLL request leaves its slot; an own MARK
satisfies its boundary. An item no longer pending changes neither slot nor queue (log entry 20). -/
def Obligations.CompletionSettlesItem : Prop :=
  ∀ (a : Attempt) (s : State), s.liu.attempt = some a → s.liu.tx = .body →
    let u := { s with liu := { s.liu with tx := .ready, rx := .seeking, recessive := 0, attempt := none } }
    (∀ m, a.item = .mark → a.frame.body = .mark m → joined s = true →
      exec .completed s = .next { u with
        ftu := { s.ftu with marker := some m.boundary }
        pub := { s.pub with markSlot := if a.pending then none else s.pub.markSlot } }) ∧
    (∀ e es, a.item = .event → a.pending = true → s.pub.queue = e :: es →
      exec .completed s = .next { u with pub := { s.pub with queue :=
        if e.copiesSent + 1 = s.params.copies.toNat then es
        else { e with copiesSent := e.copiesSent + 1, faults := 0 } :: es } }) ∧
    (a.item = .event → a.pending = false → exec .completed s = .next u) ∧
    (a.item = .roll →
      exec .completed s = .next { u with pub := { s.pub with
        rollSlot := if a.pending then none else s.pub.rollSlot } })

/-! ### The channel events -/

/-- R102, R108, R112, R113, R135, R143: the start of a channel in STARTING: the counter loaded by its mode with the held
correction, clamped with CLAMPED; the first running state with its output level, a QUALIFY channel examining its last
sample; then the start occurrence. In COUNTING the same row is the count that the tick left, up by one with the wrap
counted; with no tap instant to take, nothing changes (log entries 3 and 32). Where a release of the tick is still due, the
row is the same event beside that release (OccurrenceIsPublished; log entry 5). -/
def Obligations.StartInOrder : Prop :=
  (∀ (c : ChannelId) (s : State),
    let ch := channelOf s c
    (ch.tapDue = true → ch.state = .counting → exec (.start c) s = .next (setChannel c { ch with
      counter := ch.counter + 1, tapDue := false
      wrap := if ch.counter = 0xFFFF ∧ ch.wrap ≠ 0xFF then ch.wrap + 1 else ch.wrap } s)) ∧
    (ch.tapDue = false ∨ ch.state ∉ [.starting, .counting] → exec (.start c) s = .next s)) ∧
  ∀ (c : ChannelId) (s : State),
    let ch := channelOf s c
    ch.tapDue = true → ch.state = .starting →
    let clamp := fun x : Int => BitVec.ofInt 16 (max 0 (min 65535 x))
    let clamped := fun (x : Int) (t : State) => if x < 0 ∨ 65535 < x then
      writeRecord { kind := .clamped, time := s.ftu.time, channel := some c, value := some (BitVec.ofInt 32 x) } t else t
    let gives := fun x => startEvent c s = x ∧ (s.due.releasing = [] → exec (.start c) s = .next (publishEvent x))
    let announce := fun (shown : Half) (t : State) =>
      occur c (ch.cfg.flags.getLsbD 0)
        { kind := .chStart, time := s.ftu.time, channel := some c, tag := tagOf ch.cfg.startTag,
          value := some (shown.setWidth 32) } (tagOf ch.cfg.startTag) s.ftu.time none t
    let begin := fun (register : Half) (state : ChannelState) (output : Bool) =>
      let x := (register.toNat : Int) + ch.held.getD 0
      gives (announce (clamp x) (clamped x (setChannel c
        { ch with counter := clamp x, held := none, state := state, output := output, tapDue := false } s)))
    (ch.cfg.mode = .oneShot → begin ch.workA .active true) ∧
    (ch.cfg.mode = .delayed → begin ch.workB .lead false) ∧
    (ch.cfg.mode = .repeating → begin ch.workA .running true) ∧
    (ch.cfg.mode = .paired → begin ch.workA .phaseA true) ∧
    (ch.cfg.mode = .captureFree ∨ ch.cfg.mode = .captureClear →
      gives (announce 0 (setChannel c
        { ch with counter := 0, wrap := 0, state := .counting, tapDue := false } s))) ∧
    (ch.cfg.mode = .qualify → gives (announce ch.counter (setChannel c
      (if ch.sampled = some (ch.cfg.activeLevel != 0) then
        { ch with state := .qualifying, counter := ch.workA, runStart := s.ftu.time, tapDue := false }
      else { ch with state := .watching, tapDue := false }) s)))

/-- R112, R113, R116, R118, R122, R126, R129, R131: the underflows by mode. In ACTIVE of a ONE_SHOT or DELAYED channel:
output idle, IDLE, counter left at 0, then the end occurrence. LEAD to ACTIVE and PHASE_A to PHASE_B without an
occurrence; a REPEAT toggle, with an end occurrence when the output has returned to idle; and a period boundary, which
takes a ready pair, reloads, and makes an end occurrence. Above 0 each row is the plain count (R99; log entry 32).
R110: the pin of an output channel shows the idle level while the output is idle and the opposite while it is active;
that of an input channel is an input, and that of a channel in mode NONE is high-impedance. Where a release of the tick is
still due, the row is the same event beside that release (OccurrenceIsPublished; log entry 5). -/
def Obligations.UnderflowsByMode : Prop :=
  (∀ ch : Channel,
    (ch.cfg.mode ∈ [.oneShot, .delayed, .repeating, .paired] →
      (ch.cfg.idleLevel = 0 → pinDrive ch = if ch.output then .high else .low) ∧
      (ch.cfg.idleLevel = 1 → pinDrive ch = if ch.output then .low else .high)) ∧
    (ch.cfg.mode ∈ [.captureFree, .captureClear, .qualify] → pinDrive ch = .input) ∧
    (ch.cfg.mode = .unused → pinDrive ch = .highImpedance)) ∧
  (∀ (c : ChannelId) (s : State) (x : Mode × ChannelState × Instr),
    x ∈ [(.oneShot, .active, .oneShotUnderflow c), (.delayed, .lead, .leadUnderflow c),
         (.delayed, .active, .delayedActiveUnderflow c), (.repeating, .running, .repeatUnderflow c),
         (.paired, .phaseA, .phaseAUnderflow c), (.paired, .phaseB, .periodBoundary c),
         (.qualify, .qualifying, .qualified c)] →
    let ch := channelOf s c
    (ch.tapDue = true → ch.cfg.mode = x.1 → ch.state = x.2.1 → ch.counter ≠ 0 →
      exec x.2.2 s = .next (setChannel c { ch with counter := ch.counter - 1, tapDue := false } s)) ∧
    (ch.tapDue = false ∨ ch.cfg.mode ≠ x.1 ∨ ch.state ≠ x.2.1 → exec x.2.2 s = .next s)) ∧
  ∀ (c : ChannelId) (s : State),
    let ch := channelOf s c
    ch.tapDue = true → ch.counter = 0 →
    let ended := fun t : State => occur c (ch.cfg.flags.getLsbD 1)
      { kind := .chEnd, time := s.ftu.time, channel := some c, tag := tagOf ch.cfg.endTag } (tagOf ch.cfg.endTag)
      s.ftu.time none t
    let a := if ch.pairReady then ch.stagedA.getD ch.workA else ch.workA
    let b := if ch.pairReady then ch.stagedB.getD ch.workB else ch.workB
    let pulse := ended (setChannel c { ch with state := .idle, output := false, tapDue := false } s)
    let gives := fun (row : Instr) (x : State × Option Occurrence) => tapEventIn c ch.cfg.mode ch.state s = x ∧
      (s.due.releasing = [] ∨ x.2 = none → exec row s = .next (publishEvent x))
    (ch.cfg.mode = .oneShot → ch.state = .active → gives (.oneShotUnderflow c) pulse) ∧
    (ch.cfg.mode = .delayed → ch.state = .active → gives (.delayedActiveUnderflow c) pulse) ∧
    (ch.cfg.mode = .delayed → ch.state = .lead → gives (.leadUnderflow c) (setChannel c
      { ch with counter := ch.workA, state := .active, output := true, tapDue := false } s, none)) ∧
    (ch.cfg.mode = .paired → ch.state = .phaseA → gives (.phaseAUnderflow c) (setChannel c
      { ch with counter := ch.workB, state := .phaseB, output := false, tapDue := false } s, none)) ∧
    (ch.cfg.mode = .repeating → ch.state = .running → ch.output = false →
      gives (.repeatUnderflow c) (setChannel c { ch with counter := ch.workA, output := true, tapDue := false } s, none)) ∧
    (ch.cfg.mode = .repeating → ch.state = .running → ch.output = true →
      gives (.repeatUnderflow c)
        (ended (setChannel c { ch with counter := ch.workA, output := false, tapDue := false } s))) ∧
    (ch.cfg.mode = .paired → ch.state = .phaseB →
      gives (.periodBoundary c) (ended (setChannel c
        { ch with counter := a, workA := a, workB := b, state := .phaseA, output := true, tapDue := false,
                  stagedA := if ch.pairReady then none else ch.stagedA,
                  stagedB := if ch.pairReady then none else ch.stagedB, pairReady := false } s)))

/-- R112, R145: a run that has held to its underflow: HELD with the counter at 0, then a QUALIFIED record and an input
occurrence dated at the run start time, the record's value the ticks since, the occurrence without a value. Where a
release of the tick is still due, the row is the same event beside that release (OccurrenceIsPublished; log entry 5). -/
def Obligations.QualifiedIsBackDated : Prop :=
  ∀ (c : ChannelId) (s : State),
    let ch := channelOf s c
    ch.tapDue = true → ch.cfg.mode = .qualify → ch.state = .qualifying → ch.counter = 0 →
    let held := occur c (ch.cfg.flags.getLsbD 2)
      { kind := .qualified, time := ch.runStart, channel := some c, tag := tagOf ch.cfg.inputTag,
        value := some (s.ftu.time - ch.runStart) } (tagOf ch.cfg.inputTag) ch.runStart none
      (setChannel c { ch with state := .held, tapDue := false } s)
    tapEventIn c .qualify .qualifying s = held ∧
      (s.due.releasing = [] → exec (.qualified c) s = .next (publishEvent held))

/-- R110, R111, R136, R137, R139, R144: a pin is driven to a level. Where the present local tick's sample can show it as a
change, the channel takes it: a capture channel in COUNTING at a matching edge latches counter and T, clears in
CAPTURE_CLEAR and makes an input occurrence with the counter; a QUALIFY channel follows the level. In every other case
only the level outside is changed (log entry 24). Where a release of the tick is still due, a captured edge is taken beside
that release (OccurrenceIsPublished; log entry 5). -/
def Obligations.PinChangeIsTaken : Prop :=
  ∀ (c : ChannelId) (level : Bool) (s : State),
    let pins := if level then s.pins ||| (1#8 <<< c.val) else s.pins &&& ~~~(1#8 <<< c.val)
    let u := { s with pins := pins }
    let ch := channelOf s c
    let seen := { ch with sampled := some level, sampleOpen := false }
    let fresh := joined s = true ∧ ch.sampleOpen = true ∧ ch.sampled ≠ some level
    let active := level = (ch.cfg.activeLevel != 0)
    let edge := ch.sampled = some (!level) ∧ (ch.cfg.edge = 0 ∧ level = true ∨ ch.cfg.edge = 1 ∧ level = false ∨
      ch.cfg.edge = 2)
    let run := fun t => exec (.pinChange c level) s = .next t
    (∀ i : ChannelId, pins.getLsbD i.val = if i = c then level else s.pins.getLsbD i.val) ∧
    (¬ fresh → run u) ∧
    (fresh → ch.cfg.mode ∈ [.unused, .oneShot, .delayed, .repeating, .paired] → run u) ∧
    (fresh → ch.cfg.mode = .captureFree ∨ ch.cfg.mode = .captureClear → ch.cfg.edge.toNat ≤ 2 →
      (¬ (ch.state = .counting ∧ edge) → run (setChannel c seen u)) ∧
      (ch.state = .counting → edge →
        let cleared := ch.cfg.mode = .captureClear
        let captured := occur c (ch.cfg.flags.getLsbD 2)
          { kind := .capture, time := s.ftu.time, channel := some c, tag := tagOf ch.cfg.inputTag,
            value := some (BitVec.ofNat 32 (ch.wrap.toNat * 65536 + ch.counter.toNat)) }
          (tagOf ch.cfg.inputTag) s.ftu.time (some ch.counter)
          (setChannel c { seen with measureValue := ch.counter, measureTime := s.ftu.time,
                                    counter := if cleared then 0 else ch.counter,
                                    wrap := if cleared then 0 else ch.wrap } u)
        pinEvent c level s = captured ∧ (s.due.releasing = [] → run (publishEvent captured)))) ∧
    (fresh → ch.cfg.mode = .qualify →
      (ch.state = .watching → active →
        run (setChannel c { seen with state := .qualifying, counter := ch.workA, runStart := s.ftu.time } u)) ∧
      (ch.state = .qualifying ∨ ch.state = .held → ¬ active → run (setChannel c { seen with state := .watching } u)) ∧
      (¬ (ch.state = .watching ∧ active) → ¬ ((ch.state = .qualifying ∨ ch.state = .held) ∧ ¬ active) →
        run (setChannel c seen u)))

/-! ### Publishing -/

/-- R112, R150, R152: an occurrence: its record if the flag is set; then, if its tag is present, the walk of the local
notice, and after it the event at the queue's tail, timed in SYNCED and HOLDOVER, or dropped with PUBLISH_DROPPED when 16
wait; an idle LIU without an offer asks the arbiter. R84, R89, R116, R117: beside a release of its tick that is still due,
a walk that places an action comes after the release; and where the walk applies one to its own channel at once, which the
release would keep from finding the channel as the event left it, the event itself comes after the release (log entry 5).
That the event is untimed after the tick to 2L and before LISTEN_END is the model's choice (log entry 25). -/
def Obligations.OccurrenceIsPublished : Prop :=
  (∀ (c : ChannelId) (flag : Bool) (r : Record) (t : Time) (value : Option Half) (s : State),
    let u := if flag then writeRecord r s else s
    publishEvent (occur c flag r none t value s) = u ∧
    ∀ tag, publishEvent (occur c flag r (some tag) t value s) =
      appendEvent (some c) tag t value
        (walkNotice { origin := s.params.id, sequence := none, tag := tag, value := value, reference := t } u)) ∧
  (∀ (source : Option ChannelId) (tag : Tag) (t : Time) (value : Option Half) (s : State),
    (16 ≤ s.pub.queue.length → appendEvent source tag t value s =
      writeRecord { kind := .publishDropped, time := s.ftu.time, channel := source, tag := some tag } s) ∧
    let entry : QueueEntry :=
      { tag := tag, occurrence := t, value := value, timed := s.ftu.station == .synced || s.ftu.station == .holdover,
        sequence := none, restart := false, copiesSent := 0, faults := 0 }
    (s.pub.queue.length < 16 → appendEvent source tag t value s =
      askArbiter { s with pub := { s.pub with queue := s.pub.queue ++ [entry] } })) ∧
  (∀ s : State, s.liu.tx = .ready → s.liu.rx = .waiting → s.liu.offer = none → s.liu.muted = false →
    askArbiter s = { s with liu := { s.liu with offer :=
      match s.pub.markSlot, s.pub.queue, s.pub.rollSlot with
        | some r, _, _ => some (.mark r.boundary)
        | none, _ :: _, _ => some .event
        | none, [], some _ => some .roll
        | none, [], none => none } }) ∧
  (∀ s : State, s.liu.tx ≠ .ready ∨ s.liu.rx ≠ .waiting ∨ s.liu.offer ≠ none ∨ s.liu.muted = true →
    askArbiter s = s) ∧
  (∀ (c : ChannelId) (event : State → State × Option Occurrence) (s : State),
    let t := (event s).1
    ((event s).2 = none → takeEventOf c event s = t) ∧
    ∀ o, (event s).2 = some o →
      let parts := disturbs c o t (releaseDue t) = true
      (s.due.releasing = [] ∨ placesAction o t = false → takeEventOf c event s = publishOccurrence o t) ∧
      (s.due.releasing ≠ [] → placesAction o t = true → ¬ parts →
        takeEventOf c event s = publishOccurrence o (releaseDue t)) ∧
      (s.due.releasing ≠ [] → placesAction o t = true → parts →
        takeEventOf c event s = publishEvent (event (releaseDue s)))) ∧
  (∀ (o : Occurrence) (s : State), publishOccurrence o s = appendEvent (some o.channel) o.tag o.time o.value (walkNotice
    { origin := s.params.id, sequence := none, tag := o.tag, value := o.value, reference := o.time } s)) ∧
  ∀ (c : ChannelId) (level : Bool) (s : State) (x : Instr × (State → State × Option Occurrence)),
    x ∈ [(.start c, startEvent c), (.oneShotUnderflow c, tapEventIn c .oneShot .active),
         (.leadUnderflow c, tapEventIn c .delayed .lead), (.delayedActiveUnderflow c, tapEventIn c .delayed .active),
         (.repeatUnderflow c, tapEventIn c .repeating .running), (.phaseAUnderflow c, tapEventIn c .paired .phaseA),
         (.periodBoundary c, tapEventIn c .paired .phaseB), (.qualified c, tapEventIn c .qualify .qualifying),
         (.pinChange c level, pinEvent c level)] →
    exec x.1 s = .next (takeEventOf c x.2 s)

end
end

