-- ==== Sys2Proof/Laws/BitTimes.lean ====
section
/-! SUPPORT. Bit times (R38): what the count leaves of the LIU, and runs of bit times one behind the other. -/

namespace Sys2Proof.Machine

/-- The count changes nothing else of the LIU. -/
theorem countBit_frame (b : LineBit) (l : Liu) : countBit b l = { l with recessive := (countBit b l).recessive } := by
  unfold countBit
  repeat' split
  all_goals rfl

@[simp] theorem countBit_tx (b : LineBit) (l : Liu) : (countBit b l).tx = l.tx := by rw [countBit_frame]
@[simp] theorem countBit_rx (b : LineBit) (l : Liu) : (countBit b l).rx = l.rx := by rw [countBit_frame]
@[simp] theorem countBit_attempt (b : LineBit) (l : Liu) : (countBit b l).attempt = l.attempt := by rw [countBit_frame]
@[simp] theorem countBit_offer (b : LineBit) (l : Liu) : (countBit b l).offer = l.offer := by rw [countBit_frame]
@[simp] theorem countBit_muted (b : LineBit) (l : Liu) : (countBit b l).muted = l.muted := by rw [countBit_frame]
@[simp] theorem countBit_muteLeft (b : LineBit) (l : Liu) : (countBit b l).muteLeft = l.muteLeft := by rw [countBit_frame]

/-- The count stays within 10. -/
theorem countBit_recessive_le (b : LineBit) {l : Liu} (h : l.recessive ≤ Config.idleRun) :
    (countBit b l).recessive ≤ Config.idleRun := by
  unfold countBit
  repeat' split
  all_goals first | exact h | exact Nat.min_le_right _ _ | exact Nat.zero_le _

/-- Only in WAITING and with an offer does an attempt begin. -/
theorem attemptBegins_false (i : BitTime) {s : State} (h : s.liu.rx ≠ .waiting ∨ s.liu.offer = none) :
    attemptBegins i s = false := by
  rcases h with h | h <;> simp [attemptBegins, canAttempt, h]

/-- A run of bit times behind another goes on from what that one leaves. -/
theorem bitTimes_append (first rest : List BitTime) (x : State × FrameBits) :
    bitTimes (first ++ rest) x =
      ((bitTimes first x).1 ++ (bitTimes rest (bitTimes first x).2).1, (bitTimes rest (bitTimes first x).2).2) := by
  induction first generalizing x with
  | nil => rfl
  | cons i first ih => simp [bitTimes, ih, List.append_assoc]

end Sys2Proof.Machine
end

