-- ==== Sys2Proof/Laws/State.lean ====
section
/-! SUPPORT. One lemma for each field and each update of the state, all by definition, so that no later proof unfolds a
record update.
-/

namespace Sys2Proof.Machine

/-! ### The FTU's items changed: `setFtu` -/

@[simp] theorem setFtu_ftu (f : Ftu → Ftu) (s : State) : (setFtu f s).ftu = f s.ftu := rfl
@[simp] theorem setFtu_params (f : Ftu → Ftu) (s : State) : (setFtu f s).params = s.params := rfl
@[simp] theorem setFtu_liu (f : Ftu → Ftu) (s : State) : (setFtu f s).liu = s.liu := rfl
@[simp] theorem setFtu_counters (f : Ftu → Ftu) (s : State) : (setFtu f s).counters = s.counters := rfl
@[simp] theorem setFtu_roster (f : Ftu → Ftu) (s : State) : (setFtu f s).roster = s.roster := rfl
@[simp] theorem setFtu_table (f : Ftu → Ftu) (s : State) : (setFtu f s).table = s.table := rfl
@[simp] theorem setFtu_schedule (f : Ftu → Ftu) (s : State) : (setFtu f s).schedule = s.schedule := rfl
@[simp] theorem setFtu_channels (f : Ftu → Ftu) (s : State) : (setFtu f s).channels = s.channels := rfl
@[simp] theorem setFtu_pins (f : Ftu → Ftu) (s : State) : (setFtu f s).pins = s.pins := rfl
@[simp] theorem setFtu_pub (f : Ftu → Ftu) (s : State) : (setFtu f s).pub = s.pub := rfl
@[simp] theorem setFtu_image (f : Ftu → Ftu) (s : State) : (setFtu f s).image = s.image := rfl
@[simp] theorem setFtu_log (f : Ftu → Ftu) (s : State) : (setFtu f s).log = s.log := rfl
@[simp] theorem setFtu_port (f : Ftu → Ftu) (s : State) : (setFtu f s).port = s.port := rfl
@[simp] theorem setFtu_due (f : Ftu → Ftu) (s : State) : (setFtu f s).due = s.due := rfl
@[simp] theorem setFtu_pending (f : Ftu → Ftu) (s : State) : (setFtu f s).pending = s.pending := rfl

/-! ### The LIU's items changed: `setLiu` -/

@[simp] theorem setLiu_ftu (f : Liu → Liu) (s : State) : (setLiu f s).ftu = s.ftu := rfl
@[simp] theorem setLiu_params (f : Liu → Liu) (s : State) : (setLiu f s).params = s.params := rfl
@[simp] theorem setLiu_liu (f : Liu → Liu) (s : State) : (setLiu f s).liu = f s.liu := rfl
@[simp] theorem setLiu_counters (f : Liu → Liu) (s : State) : (setLiu f s).counters = s.counters := rfl
@[simp] theorem setLiu_roster (f : Liu → Liu) (s : State) : (setLiu f s).roster = s.roster := rfl
@[simp] theorem setLiu_table (f : Liu → Liu) (s : State) : (setLiu f s).table = s.table := rfl
@[simp] theorem setLiu_schedule (f : Liu → Liu) (s : State) : (setLiu f s).schedule = s.schedule := rfl
@[simp] theorem setLiu_channels (f : Liu → Liu) (s : State) : (setLiu f s).channels = s.channels := rfl
@[simp] theorem setLiu_pins (f : Liu → Liu) (s : State) : (setLiu f s).pins = s.pins := rfl
@[simp] theorem setLiu_pub (f : Liu → Liu) (s : State) : (setLiu f s).pub = s.pub := rfl
@[simp] theorem setLiu_image (f : Liu → Liu) (s : State) : (setLiu f s).image = s.image := rfl
@[simp] theorem setLiu_log (f : Liu → Liu) (s : State) : (setLiu f s).log = s.log := rfl
@[simp] theorem setLiu_port (f : Liu → Liu) (s : State) : (setLiu f s).port = s.port := rfl
@[simp] theorem setLiu_due (f : Liu → Liu) (s : State) : (setLiu f s).due = s.due := rfl
@[simp] theorem setLiu_pending (f : Liu → Liu) (s : State) : (setLiu f s).pending = s.pending := rfl

/-! ### A status counter changed: `count` -/

@[simp] theorem count_ftu (f : Counters → Counters) (s : State) : (count f s).ftu = s.ftu := rfl
@[simp] theorem count_params (f : Counters → Counters) (s : State) : (count f s).params = s.params := rfl
@[simp] theorem count_liu (f : Counters → Counters) (s : State) : (count f s).liu = s.liu := rfl
@[simp] theorem count_counters (f : Counters → Counters) (s : State) : (count f s).counters = f s.counters := rfl
@[simp] theorem count_roster (f : Counters → Counters) (s : State) : (count f s).roster = s.roster := rfl
@[simp] theorem count_table (f : Counters → Counters) (s : State) : (count f s).table = s.table := rfl
@[simp] theorem count_schedule (f : Counters → Counters) (s : State) : (count f s).schedule = s.schedule := rfl
@[simp] theorem count_channels (f : Counters → Counters) (s : State) : (count f s).channels = s.channels := rfl
@[simp] theorem count_pins (f : Counters → Counters) (s : State) : (count f s).pins = s.pins := rfl
@[simp] theorem count_pub (f : Counters → Counters) (s : State) : (count f s).pub = s.pub := rfl
@[simp] theorem count_image (f : Counters → Counters) (s : State) : (count f s).image = s.image := rfl
@[simp] theorem count_log (f : Counters → Counters) (s : State) : (count f s).log = s.log := rfl
@[simp] theorem count_port (f : Counters → Counters) (s : State) : (count f s).port = s.port := rfl
@[simp] theorem count_due (f : Counters → Counters) (s : State) : (count f s).due = s.due := rfl
@[simp] theorem count_pending (f : Counters → Counters) (s : State) : (count f s).pending = s.pending := rfl

/-! ### A channel replaced: `setChannel` -/

@[simp] theorem setChannel_ftu (c : ChannelId) (ch : Channel) (s : State) : (setChannel c ch s).ftu = s.ftu := rfl
@[simp] theorem setChannel_params (c : ChannelId) (ch : Channel) (s : State) : (setChannel c ch s).params = s.params := rfl
@[simp] theorem setChannel_liu (c : ChannelId) (ch : Channel) (s : State) : (setChannel c ch s).liu = s.liu := rfl
@[simp] theorem setChannel_counters (c : ChannelId) (ch : Channel) (s : State) : (setChannel c ch s).counters = s.counters := rfl
@[simp] theorem setChannel_roster (c : ChannelId) (ch : Channel) (s : State) : (setChannel c ch s).roster = s.roster := rfl
@[simp] theorem setChannel_table (c : ChannelId) (ch : Channel) (s : State) : (setChannel c ch s).table = s.table := rfl
@[simp] theorem setChannel_schedule (c : ChannelId) (ch : Channel) (s : State) : (setChannel c ch s).schedule = s.schedule := rfl
@[simp] theorem setChannel_channels (c : ChannelId) (ch : Channel) (s : State) : (setChannel c ch s).channels = s.channels.set c.val ch := rfl
@[simp] theorem setChannel_pins (c : ChannelId) (ch : Channel) (s : State) : (setChannel c ch s).pins = s.pins := rfl
@[simp] theorem setChannel_pub (c : ChannelId) (ch : Channel) (s : State) : (setChannel c ch s).pub = s.pub := rfl
@[simp] theorem setChannel_image (c : ChannelId) (ch : Channel) (s : State) : (setChannel c ch s).image = s.image := rfl
@[simp] theorem setChannel_log (c : ChannelId) (ch : Channel) (s : State) : (setChannel c ch s).log = s.log := rfl
@[simp] theorem setChannel_port (c : ChannelId) (ch : Channel) (s : State) : (setChannel c ch s).port = s.port := rfl
@[simp] theorem setChannel_due (c : ChannelId) (ch : Channel) (s : State) : (setChannel c ch s).due = s.due := rfl
@[simp] theorem setChannel_pending (c : ChannelId) (ch : Channel) (s : State) : (setChannel c ch s).pending = s.pending := rfl

/-! ### A response given: `answer` -/

@[simp] theorem answer_ftu (r : List Byte) (s : State) : (answer r s).ftu = s.ftu := rfl
@[simp] theorem answer_params (r : List Byte) (s : State) : (answer r s).params = s.params := rfl
@[simp] theorem answer_liu (r : List Byte) (s : State) : (answer r s).liu = s.liu := rfl
@[simp] theorem answer_counters (r : List Byte) (s : State) : (answer r s).counters = s.counters := rfl
@[simp] theorem answer_roster (r : List Byte) (s : State) : (answer r s).roster = s.roster := rfl
@[simp] theorem answer_table (r : List Byte) (s : State) : (answer r s).table = s.table := rfl
@[simp] theorem answer_schedule (r : List Byte) (s : State) : (answer r s).schedule = s.schedule := rfl
@[simp] theorem answer_channels (r : List Byte) (s : State) : (answer r s).channels = s.channels := rfl
@[simp] theorem answer_pins (r : List Byte) (s : State) : (answer r s).pins = s.pins := rfl
@[simp] theorem answer_pub (r : List Byte) (s : State) : (answer r s).pub = s.pub := rfl
@[simp] theorem answer_image (r : List Byte) (s : State) : (answer r s).image = s.image := rfl
@[simp] theorem answer_log (r : List Byte) (s : State) : (answer r s).log = s.log := rfl
@[simp] theorem answer_port (r : List Byte) (s : State) : (answer r s).port = { s.port with response := r, readOut := false } := rfl
@[simp] theorem answer_due (r : List Byte) (s : State) : (answer r s).due = s.due := rfl
@[simp] theorem answer_pending (r : List Byte) (s : State) : (answer r s).pending = s.pending := rfl

/-! ### The receiver back in SEEKING: `frameEnds` -/

@[simp] theorem frameEnds_ftu (s : State) : (frameEnds s).ftu = s.ftu := rfl
@[simp] theorem frameEnds_params (s : State) : (frameEnds s).params = s.params := rfl
@[simp] theorem frameEnds_liu (s : State) : (frameEnds s).liu = { s.liu with rx := .seeking, recessive := 0 } := rfl
@[simp] theorem frameEnds_counters (s : State) : (frameEnds s).counters = s.counters := rfl
@[simp] theorem frameEnds_roster (s : State) : (frameEnds s).roster = s.roster := rfl
@[simp] theorem frameEnds_table (s : State) : (frameEnds s).table = s.table := rfl
@[simp] theorem frameEnds_schedule (s : State) : (frameEnds s).schedule = s.schedule := rfl
@[simp] theorem frameEnds_channels (s : State) : (frameEnds s).channels = s.channels := rfl
@[simp] theorem frameEnds_pins (s : State) : (frameEnds s).pins = s.pins := rfl
@[simp] theorem frameEnds_pub (s : State) : (frameEnds s).pub = s.pub := rfl
@[simp] theorem frameEnds_image (s : State) : (frameEnds s).image = s.image := rfl
@[simp] theorem frameEnds_log (s : State) : (frameEnds s).log = s.log := rfl
@[simp] theorem frameEnds_port (s : State) : (frameEnds s).port = s.port := rfl
@[simp] theorem frameEnds_due (s : State) : (frameEnds s).due = s.due := rfl
@[simp] theorem frameEnds_pending (s : State) : (frameEnds s).pending = s.pending := rfl

/-! ### The transmitter back in READY: `attemptOver` -/

@[simp] theorem attemptOver_ftu (s : State) : (attemptOver s).ftu = s.ftu := rfl
@[simp] theorem attemptOver_params (s : State) : (attemptOver s).params = s.params := rfl
@[simp] theorem attemptOver_liu (s : State) : (attemptOver s).liu = { s.liu with tx := .ready, attempt := none } := rfl
@[simp] theorem attemptOver_counters (s : State) : (attemptOver s).counters = s.counters := rfl
@[simp] theorem attemptOver_roster (s : State) : (attemptOver s).roster = s.roster := rfl
@[simp] theorem attemptOver_table (s : State) : (attemptOver s).table = s.table := rfl
@[simp] theorem attemptOver_schedule (s : State) : (attemptOver s).schedule = s.schedule := rfl
@[simp] theorem attemptOver_channels (s : State) : (attemptOver s).channels = s.channels := rfl
@[simp] theorem attemptOver_pins (s : State) : (attemptOver s).pins = s.pins := rfl
@[simp] theorem attemptOver_pub (s : State) : (attemptOver s).pub = s.pub := rfl
@[simp] theorem attemptOver_image (s : State) : (attemptOver s).image = s.image := rfl
@[simp] theorem attemptOver_log (s : State) : (attemptOver s).log = s.log := rfl
@[simp] theorem attemptOver_port (s : State) : (attemptOver s).port = s.port := rfl
@[simp] theorem attemptOver_due (s : State) : (attemptOver s).due = s.due := rfl
@[simp] theorem attemptOver_pending (s : State) : (attemptOver s).pending = s.pending := rfl

/-! ### A record written: `writeRecord` -/

/-- R170: the log after one more record. -/
def pushRecord (r : Record) (l : RecordLog) : RecordLog :=
  if l.records.length < Config.recordCapacity then { l with records := l.records ++ [r] }
  else { l with lost := satInc l.lost }

/-- A record touches the log alone. -/
theorem writeRecord_eq (r : Record) (s : State) : writeRecord r s = { s with log := pushRecord r s.log } := by
  unfold writeRecord pushRecord; split <;> rfl

@[simp] theorem writeRecord_log (r : Record) (s : State) : (writeRecord r s).log = pushRecord r s.log := by
  rw [writeRecord_eq]

@[simp] theorem writeRecord_ftu (r : Record) (s : State) : (writeRecord r s).ftu = s.ftu := by rw [writeRecord_eq]
@[simp] theorem writeRecord_params (r : Record) (s : State) : (writeRecord r s).params = s.params := by rw [writeRecord_eq]
@[simp] theorem writeRecord_liu (r : Record) (s : State) : (writeRecord r s).liu = s.liu := by rw [writeRecord_eq]
@[simp] theorem writeRecord_counters (r : Record) (s : State) : (writeRecord r s).counters = s.counters := by rw [writeRecord_eq]
@[simp] theorem writeRecord_roster (r : Record) (s : State) : (writeRecord r s).roster = s.roster := by rw [writeRecord_eq]
@[simp] theorem writeRecord_table (r : Record) (s : State) : (writeRecord r s).table = s.table := by rw [writeRecord_eq]
@[simp] theorem writeRecord_schedule (r : Record) (s : State) : (writeRecord r s).schedule = s.schedule := by rw [writeRecord_eq]
@[simp] theorem writeRecord_channels (r : Record) (s : State) : (writeRecord r s).channels = s.channels := by rw [writeRecord_eq]
@[simp] theorem writeRecord_pins (r : Record) (s : State) : (writeRecord r s).pins = s.pins := by rw [writeRecord_eq]
@[simp] theorem writeRecord_pub (r : Record) (s : State) : (writeRecord r s).pub = s.pub := by rw [writeRecord_eq]
@[simp] theorem writeRecord_image (r : Record) (s : State) : (writeRecord r s).image = s.image := by rw [writeRecord_eq]
@[simp] theorem writeRecord_port (r : Record) (s : State) : (writeRecord r s).port = s.port := by rw [writeRecord_eq]
@[simp] theorem writeRecord_due (r : Record) (s : State) : (writeRecord r s).due = s.due := by rw [writeRecord_eq]
@[simp] theorem writeRecord_pending (r : Record) (s : State) : (writeRecord r s).pending = s.pending := by rw [writeRecord_eq]

/-! ### Reading what an update wrote -/

/-- A channel, by its index. -/
theorem channelOf_eq (s : State) (c : ChannelId) : channelOf s c = s.channels[c.val] := rfl

/-- The channel that was set. -/
@[simp] theorem channelOf_setChannel_self (c : ChannelId) (ch : Channel) (s : State) :
    channelOf (setChannel c ch s) c = ch := by
  simp [channelOf_eq]

/-- R99: the other channels hold separate state. -/
@[simp] theorem channelOf_setChannel_ne {c d : ChannelId} (h : d ≠ c) (ch : Channel) (s : State) :
    channelOf (setChannel c ch s) d = channelOf s d := by
  have h' : (c : Nat) ≠ d := fun e => h (Fin.ext e.symm)
  simp [channelOf_eq, h']

@[simp] theorem channelOf_writeRecord (r : Record) (s : State) (c : ChannelId) :
    channelOf (writeRecord r s) c = channelOf s c := by simp [channelOf]

/-- Two writes of one channel leave the second. -/
@[simp] theorem setChannel_setChannel (c : ChannelId) (ch ch' : Channel) (s : State) :
    setChannel c ch (setChannel c ch' s) = setChannel c ch s := by
  simp [setChannel]

end Sys2Proof.Machine
end

