-- ==== Sys2Proof/Laws/Frame.lean ====
section
/-! SUPPORT. What each shared operation can touch: one frame lemma for each. A frame is the equation that rebuilds the
later state from the earlier one and the fields the operation may change.
-/

namespace Sys2Proof.Machine

/-! ### Four frames, each with its composition -/

/-- Only channels and the record queue may differ. -/
def ChannelsOnly (s t : State) : Prop := t = { s with channels := t.channels, log := t.log }

/-- Only what a walk can reach may differ: channels, the record queue, the schedule and the actions due now. -/
def WalkOnly (s t : State) : Prop :=
  t = { s with channels := t.channels, log := t.log, schedule := t.schedule,
               due := { s.due with releasing := t.due.releasing, moments := t.due.moments } }

/-- What an occurrence can reach: what a walk can, the publish queue and the LIU's offer. -/
def OccurrenceOnly (s t : State) : Prop :=
  t = { s with channels := t.channels, log := t.log, schedule := t.schedule,
               due := { s.due with releasing := t.due.releasing, moments := t.due.moments }, pub := { s.pub with queue := t.pub.queue },
               liu := { s.liu with offer := t.liu.offer } }

theorem ChannelsOnly.refl (s : State) : ChannelsOnly s s := rfl

theorem ChannelsOnly.trans {s t u : State} (h : ChannelsOnly s t) (h' : ChannelsOnly t u) : ChannelsOnly s u := by
  refine Eq.trans h' ?_
  rw [h]

theorem WalkOnly.refl (s : State) : WalkOnly s s := rfl

theorem WalkOnly.trans {s t u : State} (h : WalkOnly s t) (h' : WalkOnly t u) : WalkOnly s u := by
  refine Eq.trans h' ?_
  rw [h]

theorem OccurrenceOnly.refl (s : State) : OccurrenceOnly s s := rfl

theorem OccurrenceOnly.trans {s t u : State} (h : OccurrenceOnly s t) (h' : OccurrenceOnly t u) :
    OccurrenceOnly s u := by
  refine Eq.trans h' ?_
  rw [h]

theorem ChannelsOnly.walk {s t : State} (h : ChannelsOnly s t) : WalkOnly s t := by
  unfold WalkOnly; rw [h]

theorem WalkOnly.occurrence {s t : State} (h : WalkOnly s t) : OccurrenceOnly s t := by
  unfold OccurrenceOnly; rw [h]

theorem ChannelsOnly.writeRecord (r : Record) (s : State) : ChannelsOnly s (writeRecord r s) := by
  unfold ChannelsOnly; rw [writeRecord_eq]

theorem ChannelsOnly.setChannel (c : ChannelId) (ch : Channel) (s : State) : ChannelsOnly s (setChannel c ch s) := rfl

/-! ### Actions (R83, R104 to R109) -/

theorem refuseAction_frame (a : PendingAction) (s : State) : ChannelsOnly s (refuseAction a s) :=
  ChannelsOnly.writeRecord _ s

theorem takeArm_frame (a : PendingAction) (s : State) : ChannelsOnly s (takeArm a s) := by
  unfold takeArm
  dsimp only
  split
  · exact .setChannel ..
  · split
    · exact .setChannel ..
    · exact refuseAction_frame a s
  · exact .refl s
  all_goals exact refuseAction_frame a s

theorem takeHalt_frame (a : PendingAction) (s : State) : ChannelsOnly s (takeHalt a s) := by
  unfold takeHalt
  dsimp only
  split
  · exact .refl s
  · exact .setChannel ..

theorem takeSnap_frame (a : PendingAction) (s : State) : ChannelsOnly s (takeSnap a s) := by
  unfold takeSnap
  dsimp only
  split
  · exact (ChannelsOnly.setChannel ..).trans (.writeRecord ..)
  · exact .setChannel ..

theorem correctRunning_frame (a : PendingAction) (v : Int) (s : State) : ChannelsOnly s (correctRunning a v s) := by
  unfold correctRunning
  dsimp only
  split
  · exact (ChannelsOnly.setChannel ..).trans (.writeRecord ..)
  · exact .setChannel ..

theorem takeCorrect_frame (a : PendingAction) (v : Int) (s : State) : ChannelsOnly s (takeCorrect a v s) := by
  unfold takeCorrect
  dsimp only
  split <;> first
    | exact refuseAction_frame a s
    | exact .setChannel ..
    | exact correctRunning_frame a v s
    | exact .refl s

/-- R83, R104 to R109: an action reaches its channel and the record queue, nothing else. -/
theorem applyAction_frame (a : PendingAction) (s : State) : ChannelsOnly s (applyAction a s) := by
  unfold applyAction
  dsimp only
  split
  · split <;> first
      | exact takeArm_frame a s
      | exact takeHalt_frame a s
      | exact takeSnap_frame a s
      | exact takeCorrect_frame a _ s
      | exact .setChannel ..
  · exact .refl s

theorem applyAll_frame (as : List PendingAction) (s : State) : ChannelsOnly s (applyAll as s) := by
  induction as generalizing s with
  | nil => exact .refl s
  | cons a as ih => exact (applyAction_frame a s).trans (ih _)

/-! ### Placement and walks (R66, R77) -/

theorem displaceOrRefuse_frame (a : PendingAction) (s : State) : WalkOnly s (displaceOrRefuse a s) := by
  unfold displaceOrRefuse
  split
  · exact .refl s
  · split
    · exact WalkOnly.trans (t := { s with schedule := _ }) rfl (ChannelsOnly.writeRecord ..).walk
    · exact (ChannelsOnly.writeRecord ..).walk

/-- R77: placement reaches the list, the channel and the record queue. -/
theorem placeAction_frame (a : PendingAction) (s : State) : WalkOnly s (placeAction a s) := by
  unfold placeAction
  dsimp only
  split
  · split
    · exact rfl
    · exact displaceOrRefuse_frame a s
  · split
    · exact (applyAction_frame a s).walk
    · split
      · exact ((ChannelsOnly.writeRecord ..).trans (applyAction_frame ..)).walk
      · exact (ChannelsOnly.writeRecord ..).walk

theorem walkEntry_frame (n : Notice) (i : Nat) (e : TrigEntry) (s : State) : WalkOnly s (walkEntry n i e s) := by
  unfold walkEntry
  split
  · split
    · exact (ChannelsOnly.writeRecord ..).walk
    · dsimp only
      split
      · exact (ChannelsOnly.writeRecord ..).walk.trans (placeAction_frame ..)
      · exact placeAction_frame ..
  · exact .refl s

theorem walkFrom_frame (n : Notice) (i : Nat) (es : List TrigEntry) (s : State) : WalkOnly s (walkFrom n i es s) := by
  induction es generalizing i s with
  | nil => exact .refl s
  | cons e es ih => exact (walkEntry_frame n i e s).trans (ih _ _)

theorem releaseDue_frame (s : State) : WalkOnly s (releaseDue s) :=
  WalkOnly.trans (t := releaseOver s) rfl (applyAll_frame ..).walk

/-- R66, R67: a walk reaches channels, the schedule and the record queue. -/
theorem walkNotice_frame (n : Notice) (s : State) : WalkOnly s (walkNotice n s) := walkFrom_frame ..

theorem walkArrival_frame (n : Notice) (s : State) : WalkOnly s (walkArrival n s) :=
  (releaseDue_frame s).trans (walkNotice_frame ..)

/-! ### Publishing (R112, R150, R152) -/

/-- R31, R157: asking the arbiter sets at most the offer. -/
theorem askArbiter_frame (s : State) : askArbiter s = { s with liu := { s.liu with offer := (askArbiter s).liu.offer } } := by
  unfold askArbiter; split <;> rfl

theorem appendEvent_frame (source : Option ChannelId) (tag : Tag) (occurrence : Time) (value : Option Half) (s : State) :
    OccurrenceOnly s (appendEvent source tag occurrence value s) := by
  unfold appendEvent
  split
  · unfold OccurrenceOnly; rw [askArbiter_frame]
  · exact (ChannelsOnly.writeRecord ..).walk.occurrence

/-- R150: a local occurrence or POST reaches what its walk reaches, and the publish queue. -/
theorem publishLocal_frame (source : Option ChannelId) (tag : Tag) (occurrence : Time) (value : Option Half)
    (forLine : Bool) (s : State) : OccurrenceOnly s (publishLocal source tag occurrence value forLine s) := by
  unfold publishLocal
  dsimp only
  split
  · exact (walkNotice_frame ..).occurrence.trans (appendEvent_frame ..)
  · exact (walkNotice_frame ..).occurrence

/-- R112: a channel event's record. -/
theorem occur_frame (c : ChannelId) (flag : Bool) (r : Record) (tag : Option Tag) (time : Time) (value : Option Half)
    (s : State) : ChannelsOnly s (occur c flag r tag time value s).1 := by
  unfold occur
  dsimp only
  split
  · exact .writeRecord ..
  · exact .refl s

theorem publishOccurrence_frame (o : Occurrence) (s : State) : OccurrenceOnly s (publishOccurrence o s) :=
  publishLocal_frame ..

/-- R112, R150: what a channel event reaches, its occurrence published. -/
theorem publishEvent_frame {s : State} {x : State × Option Occurrence} (h : ChannelsOnly s x.1) :
    OccurrenceOnly s (publishEvent x) := by
  unfold publishEvent
  split
  · exact h.walk.occurrence
  · exact h.walk.occurrence.trans (publishOccurrence_frame ..)

/-- An action finds a channel as itself. -/
@[simp] theorem findsSame_refl (a : Action) (ch : Channel) : findsSame a ch ch = true := by
  cases a <;> simp [findsSame]

/-- What leaves the channel as it is disturbs no walk. -/
theorem disturbs_of_channel_eq {c : ChannelId} {s t : State} (o : Occurrence) (h : channelOf t c = channelOf s c) :
    disturbs c o s t = false := by
  simp [disturbs, h]

/-- A walk that places no action is not disturbed. -/
theorem disturbs_of_placesNone {c : ChannelId} {o : Occurrence} {s : State} (t : State) (h : placesAction o s = false) :
    disturbs c o s t = false := by
  simp only [placesAction, Bool.not_eq_false', List.isEmpty_iff] at h
  simp [disturbs, actionsAt, h]

/-- R84, R89: a channel event beside the release of its tick is the event with its occurrence published, or the release
comes before the event, or between the event and the walk (log entry 5). -/
theorem takeEventOf_cases (c : ChannelId) (event : State → State × Option Occurrence) (s : State) :
    takeEventOf c event s = publishEvent (event s) ∨
    takeEventOf c event s = publishEvent (event (releaseDue s)) ∨
    ∃ o, (event s).2 = some o ∧ takeEventOf c event s = publishOccurrence o (releaseDue (event s).1) := by
  unfold takeEventOf publishEvent
  dsimp only
  split
  · exact .inl rfl
  · rename_i o h
    split
    · exact .inl rfl
    · split
      · exact .inr (.inl rfl)
      · exact .inr (.inr ⟨o, h, rfl⟩)

/-- R84: with no release due, a channel event hands its occurrence to Publishing at once. -/
theorem takeEventOf_eq (c : ChannelId) (event : State → State × Option Occurrence) (s : State)
    (h : s.due.releasing = []) : takeEventOf c event s = publishEvent (event s) := by
  unfold takeEventOf publishEvent
  dsimp only
  split
  · rfl
  · simp [h]

end Sys2Proof.Machine
end

