-- ==== Sys2Proof/Laws/Memory.lean ====
section
/-! SUPPORT. The image memory: a read after a write, and the canonical form that every operation keeps (R163). -/

namespace Sys2Proof.Machine

/-- The canonical form above one bound holds above every lower one. -/
theorem cellsWf_mono {low low' : Nat} (h : low' ≤ low) {m : List Host.Cell} (hm : cellsWf low m = true) :
    cellsWf low' m = true := by
  cases m with
  | nil => rfl
  | cons c rest =>
    simp only [cellsWf, Bool.and_eq_true, decide_eq_true_eq] at hm ⊢
    exact ⟨⟨⟨by omega, hm.1.1.2⟩, hm.1.2⟩, hm.2⟩

/-- Below its bound a canonical memory reads as the default. -/
theorem readCell_below {low a : Nat} (h : a < low) {m : List Host.Cell} (hm : cellsWf low m = true) :
    readCell m a = Config.imageDefault := by
  induction m generalizing low with
  | nil => rfl
  | cons c rest ih =>
    simp only [cellsWf, Bool.and_eq_true, decide_eq_true_eq] at hm
    have hne : c.1 ≠ a := by omega
    simp only [readCell, hne, if_false]
    exact ih (by omega) hm.2

/-- A write keeps the canonical form. -/
theorem cellsWf_writeCell {low a : Nat} {v : Byte} {m : List Host.Cell} (hl : low ≤ a) (ha : a < Config.imageBytes)
    (hm : cellsWf low m = true) : cellsWf low (writeCell m a v) = true := by
  induction m generalizing low with
  | nil =>
    simp only [writeCell]
    split
    · rfl
    · rename_i hv; simp [cellsWf, hl, ha, hv]
  | cons c rest ih =>
    obtain ⟨b, w⟩ := c
    simp only [cellsWf, Bool.and_eq_true, decide_eq_true_eq] at hm
    obtain ⟨⟨⟨hb, hbi⟩, hw⟩, hr⟩ := hm
    simp only [writeCell]
    split
    · rename_i hab
      split
      · simp [cellsWf, hb, hbi, hw, hr]
      · rename_i hv
        simp [cellsWf, hl, ha, hv, hbi, hw, hr, Nat.succ_le_of_lt hab]
    · rename_i hab
      split
      · rename_i he
        subst he
        split
        · exact cellsWf_mono (by omega) hr
        · rename_i hv
          simp [cellsWf, hl, ha, hv, hr]
      · simp only [cellsWf, Bool.and_eq_true, decide_eq_true_eq]
        exact ⟨⟨⟨hb, hbi⟩, hw⟩, ih (by omega) hr⟩

/-- A read after a write gives the value written, and every other byte as it was. -/
theorem readCell_writeCell {low a : Nat} {v : Byte} {m : List Host.Cell} (hm : cellsWf low m = true) (b : Nat) :
    readCell (writeCell m a v) b = if a = b then v else readCell m b := by
  induction m generalizing low with
  | nil =>
    simp only [writeCell]
    split
    · rename_i hv; simp [readCell, hv]
    · simp [readCell]
  | cons c rest ih =>
    obtain ⟨d, w⟩ := c
    have hm' := hm
    simp only [cellsWf, Bool.and_eq_true, decide_eq_true_eq] at hm'
    obtain ⟨-, hr⟩ := hm'
    have hlow : ∀ x, x ≤ d → x ≠ d → readCell ((d, w) :: rest) x = Config.imageDefault := by
      intro x hx hne
      have : d ≠ x := fun e => hne e.symm
      simp only [readCell, this, if_false]
      exact readCell_below (by omega) hr
    simp only [writeCell]
    split
    · rename_i hab
      split
      · rename_i hv
        by_cases hb : a = b
        · subst hb; rw [hlow a (by omega) (by omega), if_pos rfl, hv]
        · rw [if_neg hb]
      · simp [readCell]
    · rename_i hab
      split
      · rename_i he
        subst he
        split
        · rename_i hv
          by_cases hb : a = b
          · subst hb; rw [if_pos rfl, hv]; exact readCell_below (by omega) hr
          · simp [readCell, hb]
        · by_cases hb : a = b <;> simp [readCell, hb]
      · rename_i he
        simp only [readCell]
        split
        · rename_i hd; subst hd; simp [he]
        · exact ih hr

/-- A write keeps the canonical form of the image. -/
theorem memoryWf_writeCell {a : Nat} {v : Byte} {m : List Host.Cell} (ha : a < Config.imageBytes)
    (hm : memoryWf m = true) : memoryWf (writeCell m a v) = true :=
  cellsWf_writeCell (Nat.zero_le a) ha hm

/-- Consecutive writes inside the image keep the canonical form. -/
theorem memoryWf_writeCells {a : Nat} {vs : List Byte} {m : List Host.Cell} (ha : a + vs.length ≤ Config.imageBytes)
    (hm : memoryWf m = true) : memoryWf (writeCells m a vs) = true := by
  induction vs generalizing m a with
  | nil => exact hm
  | cons v vs ih =>
    simp only [List.length_cons] at ha
    exact ih (by omega) (memoryWf_writeCell (by omega) hm)

/-- R163: consecutive writes, read back: the bytes written, and every other byte as it was. -/
theorem readCell_writeCells {a : Nat} {vs : List Byte} {m : List Host.Cell} (ha : a + vs.length ≤ Config.imageBytes)
    (hm : memoryWf m = true) (b : Nat) :
    readCell (writeCells m a vs) b = if a ≤ b then (vs[b - a]?).getD (readCell m b) else readCell m b := by
  induction vs generalizing m a with
  | nil => simp [writeCells]
  | cons v vs ih =>
    simp only [List.length_cons] at ha
    rw [writeCells, ih (by omega) (memoryWf_writeCell (by omega) hm), readCell_writeCell hm]
    by_cases hab : a = b
    · subst hab; rw [if_neg (by omega)]; simp
    · by_cases hlt : a ≤ b
      · have h1 : a + 1 ≤ b := by omega
        have h2 : b - a = (b - (a + 1)) + 1 := by omega
        simp [hab, hlt, h1, h2]
      · have h1 : ¬ a + 1 ≤ b := by omega
        simp [hab, hlt, h1]

/-- The image after reset is in its canonical form. -/
theorem memoryWf_reset : memoryWf State.reset.image = true := rfl

end Sys2Proof.Machine
end

