-- ==== Sys2Proof/Laws/Spi.lean ====
section
/-! SUPPORT. The bits of the station port (R161): bytes from their bits, and what one change of the pins does. -/

namespace Sys2Proof.Machine

/-- The bits of a byte, most significant first, make that byte again. -/
theorem bytesOfBits_byte (b : Byte) (rest : List Bool) : bytesOfBits (bitsOf b ++ rest) = b :: bytesOfBits rest := by
  have h : bitsOf b = [b.getMsbD 0, b.getMsbD 1, b.getMsbD 2, b.getMsbD 3, b.getMsbD 4, b.getMsbD 5, b.getMsbD 6,
    b.getMsbD 7] := rfl
  rw [h]
  simp only [List.cons_append, List.nil_append, bytesOfBits]
  congr 1
  revert b; decide +kernel

/-- A byte that is not complete makes none. -/
theorem bytesOfBits_incomplete {part : List Bool} (h : part.length < 8) : bytesOfBits part = [] := by
  match part, h with
  | [], _ | [_], _ | [_, _], _ | [_, _, _], _ | [_, _, _, _], _ | [_, _, _, _, _], _ | [_, _, _, _, _, _], _
  | [_, _, _, _, _, _, _], _ => rfl

/-- Whole bytes sent most significant bit first come back, and the bits of an incomplete one make nothing. -/
theorem bytesOfBits_sent (bytes : List Byte) {part : List Bool} (h : part.length < 8) :
    bytesOfBits (bytes.flatMap bitsOf ++ part) = bytes := by
  induction bytes with
  | nil => exact bytesOfBits_incomplete h
  | cons b rest ih => rw [List.flatMap_cons, List.append_assoc, bytesOfBits_byte, ih]

/-! ### One change of the pins -/

variable {before now : PortPins} {x : Shifter}

/-- CS high, or RESET low: no transaction. -/
theorem shifterAfter_ends (h : now.cs = true ∨ now.reset = false) : shifterAfter before now x = noShifter := by
  rcases h with h | h <;> simp [shifterAfter, h]

/-- A falling CS begins a transaction. -/
theorem shifterAfter_begins (hb : before.cs = true) (hc : now.cs = false) (hr : now.reset = true) :
    shifterAfter before now x = { noShifter with selected := true } := by
  simp [shifterAfter, noShifter, hb, hc, hr]

/-- While CS is low, a rising SCK samples SDI. -/
theorem shifterAfter_rising (hb : before.cs = false) (hc : now.cs = false) (hr : now.reset = true)
    (hx : x.selected = true) (h0 : before.sck = false) (h1 : now.sck = true) :
    shifterAfter before now x = { x with sampled := x.sampled ++ [now.sdi] } := by
  simp [shifterAfter, hb, hc, hr, hx, h0, h1]

/-- While CS is low, a falling SCK changes SDO to the next bit. -/
theorem shifterAfter_falling (hb : before.cs = false) (hc : now.cs = false) (hr : now.reset = true)
    (hx : x.selected = true) (h0 : before.sck = true) (h1 : now.sck = false) :
    shifterAfter before now x = { x with shown := x.shown + 1 } := by
  simp [shifterAfter, hb, hc, hr, hx, h0, h1]

/-- While CS is low, nothing changes where SCK does not. -/
theorem shifterAfter_still (hb : before.cs = false) (hc : now.cs = false) (hr : now.reset = true)
    (h : before.sck = now.sck) : shifterAfter before now x = x := by
  cases hs : now.sck <;> simp [shifterAfter, hb, hc, hr, h, hs]

/-- Outside a transaction SCK is ignored while CS stays low. -/
theorem shifterAfter_unselected (hb : before.cs = false) (hc : now.cs = false) (hr : now.reset = true)
    (hx : x.selected = false) : shifterAfter before now x = x := by
  simp [shifterAfter, hb, hc, hr, hx]

end Sys2Proof.Machine
end

