-- ==== Sys2Proof/Laws/Steady.lean ====
section
/-! SUPPORT. What the blocks never touch while they work: the working parameters, the trigger table, the pins, the image,
the port and the queue of commands; and what leaves fabric time alone.
-/

namespace Sys2Proof.Machine

/-- The items that only the station port's requests, RESET and the outside change. -/
structure Steady (s t : State) : Prop where
  params : t.params = s.params
  table : t.table = s.table
  pins : t.pins = s.pins
  image : t.image = s.image
  port : t.port = s.port
  pending : t.pending = s.pending

/-- Steady, and T stays too. -/
structure Still (s t : State) : Prop extends Steady s t where
  time : t.ftu.time = s.ftu.time
  listenEnd : t.ftu.listenEnd = s.ftu.listenEnd

theorem Steady.refl (s : State) : Steady s s := ⟨rfl, rfl, rfl, rfl, rfl, rfl⟩

theorem Steady.trans {s t u : State} (h : Steady s t) (k : Steady t u) : Steady s u :=
  ⟨k.params.trans h.params, k.table.trans h.table, k.pins.trans h.pins, k.image.trans h.image, k.port.trans h.port,
    k.pending.trans h.pending⟩

theorem Still.refl (s : State) : Still s s := ⟨.refl s, rfl, rfl⟩

theorem Still.trans {s t u : State} (h : Still s t) (k : Still t u) : Still s u :=
  ⟨h.toSteady.trans k.toSteady, k.time.trans h.time, k.listenEnd.trans h.listenEnd⟩

/-- An occurrence leaves T and the steady items. -/
theorem OccurrenceOnly.still {s t : State} (h : OccurrenceOnly s t) : Still s t := by
  rw [h]; exact ⟨⟨rfl, rfl, rfl, rfl, rfl, rfl⟩, rfl, rfl⟩

theorem Still.writeRecord (r : Record) (s : State) : Still s (writeRecord r s) :=
  (ChannelsOnly.writeRecord r s).walk.occurrence.still

/-- A change of the LIU, Publishing, the roster, the counters or the due flags leaves T and the steady items. -/
theorem Still.of_eq {s t : State} (hp : t.params = s.params) (ht : t.table = s.table) (hi : t.pins = s.pins)
    (hm : t.image = s.image) (ho : t.port = s.port) (hq : t.pending = s.pending) (hf : t.ftu = s.ftu) : Still s t :=
  ⟨⟨hp, ht, hi, hm, ho, hq⟩, by rw [hf], by rw [hf]⟩

/-! ### The channel engines -/

/-- A channel set, and then a change of channels and records. -/
theorem ChannelsOnly.set {s t : State} (c : ChannelId) (ch : Channel)
    (h : ChannelsOnly (Machine.setChannel c ch s) t) : ChannelsOnly s t :=
  ChannelsOnly.trans (ChannelsOnly.setChannel c ch s) h

theorem startOccurrence_frame (c : ChannelId) (v : Half) (s : State) : ChannelsOnly s (startOccurrence c v s).1 :=
  occur_frame ..

theorem endOccurrence_frame (c : ChannelId) (s : State) : ChannelsOnly s (endOccurrence c s).1 := occur_frame ..

theorem startChannel_frame (c : ChannelId) (s : State) : ChannelsOnly s (startChannel c s).1 := by
  unfold startChannel
  dsimp only
  split
  · split
    · exact .set c _ ((ChannelsOnly.writeRecord ..).trans (startOccurrence_frame ..))
    · exact .set c _ (startOccurrence_frame ..)
  · exact .set c _ (startOccurrence_frame ..)

theorem repeatUnderflowOf_frame (c : ChannelId) (s : State) : ChannelsOnly s (repeatUnderflowOf c s).1 := by
  unfold repeatUnderflowOf
  dsimp only
  split
  · exact .set c _ (endOccurrence_frame ..)
  · exact .setChannel ..

/-- R99: a tap instant reaches its channel and the record queue; its occurrence is still to be published. -/
theorem tapEvent_frame (c : ChannelId) (s : State) : ChannelsOnly s (tapEvent c s).1 := by
  unfold tapEvent
  dsimp only
  split
  · exact .refl s
  split
  · exact startChannel_frame c s
  split
  · split <;> first
      | exact .set c _ (endOccurrence_frame ..)
      | exact repeatUnderflowOf_frame c s
      | exact .set c _ (occur_frame ..)
      | exact .setChannel ..
  · exact .setChannel ..

theorem captureEdge_frame (c : ChannelId) (s : State) : ChannelsOnly s (captureEdge c s).1 := .set c _ (occur_frame ..)

theorem takeSample_frame (c : ChannelId) (level : Bool) (s : State) : ChannelsOnly s (takeSample c level s).1 := by
  unfold takeSample
  dsimp only
  split
  · exact .setChannel ..
  · split
    · exact .set c _ (captureEdge_frame ..)
    · exact .setChannel ..
  · split
    · exact .set c _ (captureEdge_frame ..)
    · exact .setChannel ..
  all_goals exact .refl s

/-- R111: a sample reaches its channel and the record queue. -/
theorem sampleEvent_frame (c : ChannelId) (s : State) : ChannelsOnly s (sampleEvent c s).1 := by
  unfold sampleEvent
  split
  · exact takeSample_frame ..
  · exact .refl s

/-- R111: a pin event reaches that pin, its channel and the record queue. -/
theorem pinEvent_frame (c : ChannelId) (level : Bool) (s : State) :
    ChannelsOnly (drivePin c level s) (pinEvent c level s).1 := by
  unfold pinEvent
  split
  · exact sampleEvent_frame ..
  · exact .refl _

theorem takeTap_frame (c : ChannelId) (s : State) : OccurrenceOnly s (takeTap c s) :=
  publishEvent_frame (tapEvent_frame c s)

theorem takeSampleDue_frame (c : ChannelId) (s : State) : OccurrenceOnly s (takeSampleDue c s) :=
  publishEvent_frame (sampleEvent_frame c s)

theorem settleChannel_frame (c : ChannelId) (s : State) : OccurrenceOnly s (settleChannel s c) :=
  (takeTap_frame c s).trans (takeSampleDue_frame ..)

/-- All channels settled. -/
theorem settleChannels_frame (cs : List ChannelId) (s : State) : OccurrenceOnly s (cs.foldl settleChannel s) := by
  induction cs generalizing s with
  | nil => exact .refl s
  | cons c cs ih => exact (settleChannel_frame c s).trans (ih _)

/-! ### The rows of the channels, beside a release (R84, R89) -/

/-- A channel event that reaches its channel and the record queue, beside the release of its tick, reaches what an
occurrence does. -/
theorem takeEventOf_frame (c : ChannelId) (event : State → State × Option Occurrence)
    (h : ∀ s, ChannelsOnly s (event s).1) (s : State) : OccurrenceOnly s (takeEventOf c event s) := by
  obtain e | e | ⟨o, -, e⟩ := takeEventOf_cases c event s
  · rw [e]; exact publishEvent_frame (h s)
  · rw [e]; exact (releaseDue_frame s).occurrence.trans (publishEvent_frame (h _))
  · rw [e]
    exact ((h s).walk.trans (releaseDue_frame _)).occurrence.trans (publishOccurrence_frame ..)

theorem tapEventIn_frame (c : ChannelId) (mode : Mode) (state : ChannelState) (s : State) :
    ChannelsOnly s (tapEventIn c mode state s).1 := by
  unfold tapEventIn
  split
  · exact tapEvent_frame c s
  · exact .refl s

theorem startEvent_frame (c : ChannelId) (s : State) : ChannelsOnly s (startEvent c s).1 := by
  unfold startEvent
  split
  · exact tapEvent_frame c s
  · exact .refl s

/-! ### A release with channel events among its actions (R84, R134) -/

/-- What a RELEASE can reach: what an occurrence can, and the pins that the sender drives. -/
def MomentOnly (s t : State) : Prop := OccurrenceOnly { s with pins := t.pins } t

theorem MomentOnly.refl (s : State) : MomentOnly s s := rfl

theorem MomentOnly.trans {s t u : State} (h : MomentOnly s t) (k : MomentOnly t u) : MomentOnly s u := by
  unfold MomentOnly OccurrenceOnly at *
  refine Eq.trans k ?_
  rw [h]

theorem OccurrenceOnly.moment {s t : State} (h : OccurrenceOnly s t) : MomentOnly s t := by
  unfold MomentOnly OccurrenceOnly at *
  rw [h]

theorem momentEvent_frame (m : ChannelMoment) (s : State) : MomentOnly s (momentEvent m s).1 := by
  cases m with
  | tap c => exact (tapEvent_frame c s).walk.occurrence.moment
  | pin c level =>
    exact MomentOnly.trans (t := drivePin c level s) rfl (pinEvent_frame c level s).walk.occurrence.moment

theorem takeMoment_frame (left : List PendingAction) (p : State × List Occurrence) (m : ChannelMoment) :
    MomentOnly p.1 (takeMoment left p m).1 := by
  unfold takeMoment
  dsimp only
  split
  · cases m with
    | tap c => exact .refl _
    | pin c level => exact rfl
  · split
    · exact momentEvent_frame m p.1
    · split
      · exact momentEvent_frame m p.1
      · exact (momentEvent_frame m p.1).trans (publishOccurrence_frame ..).moment

theorem takeMoments_frame (left : List PendingAction) (ms : List ChannelMoment) (p : State × List Occurrence) :
    MomentOnly p.1 (ms.foldl (takeMoment left) p).1 := by
  induction ms generalizing p with
  | nil => exact .refl _
  | cons m ms ih => exact (takeMoment_frame left p m).trans (ih _)

theorem releaseFrom_frame (as : List PendingAction) (moments : List (List ChannelMoment)) (p : State × List Occurrence) :
    MomentOnly p.1 (releaseFrom as moments p).1 := by
  induction as generalizing moments p with
  | nil => exact .refl _
  | cons a as ih =>
    exact (takeMoments_frame ..).trans ((applyAction_frame ..).walk.occurrence.moment.trans (ih _ (_, _)))

theorem publishWaiting_frame (p : State × List Occurrence) : OccurrenceOnly p.1 (publishWaiting p) := by
  obtain ⟨s, os⟩ := p
  unfold publishWaiting
  induction os generalizing s with
  | nil => exact .refl _
  | cons o os ih => exact (publishOccurrence_frame o s).trans (ih _)

/-- R84: with no channel event put among them, the actions are applied one after the other. -/
theorem releaseFrom_nil (as : List PendingAction) (p : State × List Occurrence) :
    releaseFrom as [] p = (applyAll as p.1, p.2) := by
  induction as generalizing p with
  | nil => rfl
  | cons a as ih => exact ih (applyAction a p.1, p.2)

theorem releaseAmong_nil (s : State) (h : s.due.moments = []) : releaseAmong s = releaseDue s := by
  unfold releaseAmong; rw [h, releaseFrom_nil]; rfl

/-- R84: RELEASE reaches channels, the schedule, the record queue, the publish queue, the offer and the pins. -/
theorem releaseAmong_frame (s : State) : MomentOnly s (releaseAmong s) :=
  MomentOnly.trans (t := releaseOver s) rfl
    ((releaseFrom_frame _ _ (releaseOver s, [])).trans (publishWaiting_frame _).moment)

/-! ### Slots, mute and the roster -/

theorem askArbiter_still (s : State) : Still s (askArbiter s) := by
  rw [askArbiter_frame]; exact .of_eq rfl rfl rfl rfl rfl rfl rfl

theorem withdrawMark_still (s : State) : Still s (withdrawMark s) := .of_eq rfl rfl rfl rfl rfl rfl rfl

theorem raiseMark_still (b : Time) (s : State) : Still s (raiseMark b s) :=
  Still.trans (by exact .of_eq rfl rfl rfl rfl rfl rfl rfl) (askArbiter_still _)

theorem raiseRoll_still (s : State) : Still s (raiseRoll s) :=
  Still.trans (by exact .of_eq rfl rfl rfl rfl rfl rfl rfl) (askArbiter_still _)

theorem endMute_still (s : State) : Still s (endMute s) :=
  Still.trans (by exact .of_eq rfl rfl rfl rfl rfl rfl rfl) (.writeRecord ..)

theorem muteBoundary_still (s : State) : Still s (muteBoundary s) := by
  unfold muteBoundary
  split
  · exact endMute_still s
  · split
    · exact .of_eq rfl rfl rfl rfl rfl rfl rfl
    · exact .refl s

theorem withdrawEarlier_still (b : Time) (s : State) : Still s (withdrawEarlier b s) := by
  unfold withdrawEarlier
  split
  · split
    · exact withdrawMark_still s
    · exact .refl s
  · exact .refl s

theorem ftuBoundary_still (b : Time) (s : State) : Still s (ftuBoundary b s) := by
  unfold ftuBoundary
  dsimp only
  split
  · split
    · exact (withdrawEarlier_still ..).trans (raiseMark_still ..)
    · exact withdrawEarlier_still ..
  · exact .refl s

/-- A change of FTU items other than T and the listen end. -/
theorem setFtu_still (f : Ftu → Ftu) (s : State) (ht : (f s.ftu).time = s.ftu.time)
    (hl : (f s.ftu).listenEnd = s.ftu.listenEnd) : Still s (setFtu f s) :=
  ⟨⟨rfl, rfl, rfl, rfl, rfl, rfl⟩, ht, hl⟩

theorem limitRecord_still (s : State) : Still s (limitRecord s) := by
  unfold limitRecord
  split
  · exact .writeRecord ..
  · exact .refl s

theorem enterHoldover_still (s : State) : Still s (enterHoldover s) :=
  (setFtu_still _ s rfl rfl).trans ((Still.writeRecord ..).trans (limitRecord_still _))

theorem holdoverCheck_still (b : Time) (s : State) : Still s (holdoverCheck b s) := by
  unfold holdoverCheck
  split
  · exact .refl s
  · split
    · exact enterHoldover_still s
    · exact enterHoldover_still s
    · split
      · exact .refl s
      · exact (setFtu_still _ s rfl rfl).trans (limitRecord_still _)
    all_goals exact .refl s

theorem ageRoster_still (e : Time) (s : State) : Still s (ageRoster e s) := by
  have h : ∀ (es : List RosterEntry) (t : State), Still t (es.foldl peerLost t) := by
    intro es
    induction es with
    | nil => exact fun t => .refl t
    | cons x es ih => exact fun t => (Still.writeRecord ..).trans (ih _)
  exact Still.trans (by exact .of_eq rfl rfl rfl rfl rfl rfl rfl) (h _ _)

theorem rollRequest_still (e : Time) (s : State) : Still s (rollRequest e s) := by
  unfold rollRequest
  split
  · exact raiseRoll_still s
  · exact .refl s

/-- R4: a mid-epoch instant leaves T and the steady items. -/
theorem midEpochAt_still (m : Time) (rosterFirst : Bool) (s : State) : Still s (midEpochAt m rosterFirst s) := by
  unfold midEpochAt rosterMidEpoch
  dsimp only
  split
  · exact (ageRoster_still ..).trans ((rollRequest_still ..).trans (holdoverCheck_still ..))
  · exact (holdoverCheck_still ..).trans ((ageRoster_still ..).trans (rollRequest_still ..))

/-! ### The present instant -/

theorem takeListenEnd_still (s : State) : Still s (takeListenEnd s) := by
  unfold takeListenEnd
  split
  · exact (setFtu_still _ s rfl rfl).trans (.writeRecord ..)
  · exact .refl s

theorem takeMuteCount_still (s : State) : Still s (takeMuteCount s) := by
  unfold takeMuteCount
  split
  · exact (muteBoundary_still s).trans (.of_eq rfl rfl rfl rfl rfl rfl rfl)
  · exact .refl s

theorem takeUnmute_still (s : State) : Still s (takeUnmute s) := by
  unfold takeUnmute
  split
  · exact (endMute_still s).trans (.of_eq rfl rfl rfl rfl rfl rfl rfl)
  · exact .refl s

theorem takeBoundary_still (s : State) : Still s (takeBoundary s) := by
  unfold takeBoundary
  dsimp only
  split
  · refine (takeListenEnd_still s).trans (Still.trans ?_ ((ftuBoundary_still ..).trans (takeMuteCount_still _)))
    exact .of_eq rfl rfl rfl rfl rfl rfl rfl
  · exact .refl s

/-- R22: in DISCORD the FTU takes a boundary without a request: it and PUB stay as they are, and the boundary is no longer
due at the FTU. -/
theorem takeBoundary_of_discord {s : State} (h : s.ftu.station = .discord) :
    (takeBoundary s).ftu = s.ftu ∧ (takeBoundary s).pub = s.pub ∧ (takeBoundary s).due.midEpoch = s.due.midEpoch ∧
      (takeBoundary s).due.ftuBoundary = false := by
  unfold takeBoundary
  split
  · have hl : takeListenEnd s = s := by simp [takeListenEnd, listenEndDue, h]
    simp only [hl, ftuBoundary, lockedOn, h, takeMuteCount, muteBoundary, liuBoundaryTaken]
    simp
    repeat' split
    all_goals simp_all [countMute]
  · simp_all

theorem takeMidEpoch_still (rosterFirst : Bool) (s : State) : Still s (takeMidEpoch rosterFirst s) := by
  unfold takeMidEpoch
  split
  · exact Still.trans (by exact .of_eq rfl rfl rfl rfl rfl rfl rfl) (midEpochAt_still ..)
  · exact .refl s

/-- Settling the present instant leaves T and the steady items. -/
theorem settle_still (s : State) : Still s (settle s) :=
  (takeListenEnd_still s).trans <| (takeBoundary_still _).trans <| (takeMuteCount_still _).trans <|
    (takeUnmute_still _).trans <| (takeMidEpoch_still ..).trans <|
      (releaseDue_frame _).occurrence.still.trans (settleChannels_frame ..).still

end Sys2Proof.Machine
end

