-- ==== Sys2Proof/Tests/Slice0.lean ====
section
/-! SUPPORT. The model's own tests, each one step on a small state: ill-formed commands are refused by `wellFormed`; frames and
requests written out from the spec's layouts; values of the spec's worked examples; and for every statement with
hypotheses a concrete state and operands that meet them, clause by clause at boundary values.
-/

namespace Sys2Proof.Tests
set_option Elab.async false
open Sys2Proof Sys2Proof.Machine

/-! ### Small states -/

/-- The state after one command; the same state where it would stop. -/
def after (c : Instr) (s : State) : State := match exec c s with | .next t => t | .fault _ | .refused _ => s

/-- A joined station of this id in this station state at T = t: k = 10, W = 200, latency 30, late limit 150, H = 3,
roll interval 8, age limit 16, two copies. -/
def station (id : StationId) (state : StationState) (t : Time) : State :=
  { State.reset with
    ftu := { Ftu.reset with time := t, station := state }
    params := { id := id, k := 10, window := 200, latency := 30, lateLimit := 150, holdoverLimit := 3, rollInterval := 8,
                ageLimit := 16, copies := 2 }
    liu := { Liu.reset with tx := .ready } }

/-- Its receiver inside a frame of another station. -/
def hearing (s : State) : State := { s with liu := { s.liu with rx := .taking } }

/-- The line idle. -/
def idle (s : State) : State := { s with liu := { s.liu with rx := .waiting } }

/-- Station 9, SYNCED at T = 500,000. -/
def nine : State := station 9 .synced 500000

/-- A channel of this mode in this state, no setting but the mode. -/
def engine (mode : Mode) (state : ChannelState) : Channel :=
  { Channel.reset with cfg := { ChannelConfig.reset with mode := mode }, state := state }

/-- Station 9 with this engine as channel 2. -/
def withEngine (ch : Channel) : State := setChannel 2 ch nine

/-- An action for channel 2 from station 5's event. -/
def action (due : Time) (a : Action) (operand : Option Half) : PendingAction :=
  { due := due, channel := 2, action := a, operand := operand,
    cause := { origin := 5, tag := 212, sequence := some 10, entry := 3 } }

/-- Station 9 with this engine as channel 2 and this action to be released. -/
def releasing (ch : Channel) (a : Action) (operand : Option Half) : State :=
  { withEngine ch with due := { Due.none with releasing := [action 500000 a operand] } }

/-- A roster entry last heard in this epoch. -/
def peer (origin : StationId) (heard : Time) : RosterEntry := newEntry origin heard

/-- A publish queue entry. -/
def item (sequence : Option Byte) (copies faults : Nat) : QueueEntry :=
  { tag := 610, occurrence := 499000, value := none, timed := true, sequence := sequence, restart := false,
    copiesSent := copies, faults := faults }

/-- Station 9 with a frame of this kind on the line. -/
def sending (item : TxItem) (body : FrameBody) (tx : TxState) (won itemPending : Bool) (s : State) : State :=
  let a : Attempt := { item := item, frame := { origin := s.params.id, body := body }, won := won, pending := itemPending }
  { s with liu := { s.liu with tx := tx, rx := .taking, attempt := some a } }

/-- The station section of a valid image: id 5, k = 10, W = 255, latency 30, late limit 150, H = 3, I = 8, age 16, N = 2;
every channel NONE and every trigger entry not valid. -/
def image : List Host.Cell := writeCells [] 0 [5, 10, 0, 255, 30, 0, 150, 3, 8, 16, 2]

/-- The same image with channel 7 in QUALIFY and trigger entries 0, 1 and 63 for it: from SELF, from REMOTE, from 62. -/
def wired : List Host.Cell :=
  writeCells (writeCells (writeCells (writeCells image 128 [7, 3, 0, 9, 0, 0, 0, 0, 1, 15, 0xFF, 0xFF, 0, 0, 3, 255])
    144 [1, 0, 7, 64, 7, 1, 0, 0, 0, 0, 0, 0]) 156 [3, 0, 8, 65, 7, 6, 1, 2, 3, 0, 0, 0])
    900 [1, 3, 255, 62, 7, 4, 255, 255, 255, 1, 0, 0]

/-- A full record queue. -/
def fullLog (lost : Half) : RecordLog :=
  { records := List.replicate 64 { kind := .matched, time := 1 }, lost := lost }

/-- A MARK that the examples use, in the default order. -/
def order : MarkOrder := { rosterFirst := false, releaseFirst := false, agingFirst := false }

/-! ### Which commands can arise -/

theorem test_write_image_length_refused : (Instr.writeImage 0 2 [7]).wellFormed = false := by decide
theorem test_known_code_refused : (Instr.unknownRequest 0x30).wellFormed = false := by decide
theorem test_mark_of_origin_zero_refused : (Instr.markArrival 0 ⟨0, 0⟩ order).wellFormed = false := by decide
theorem test_event_repeat_three_refused :
    (Instr.eventArrival 5 ⟨true, false, 3, 1, 1, 0, none⟩).wellFormed = false := by decide
theorem test_roll_state_five_refused : (Instr.rollArrival 5 ⟨5, 0, 0⟩).wellFormed = false := by decide
theorem test_roll_size_refused : (Instr.rollArrival 5 ⟨2, 33, 0⟩).wellFormed = false := by decide
theorem test_lost_at_body_refused : (Instr.lostArbitration 9).wellFormed = false := by decide
theorem test_mark_of_origin_63_refused : (Instr.markArrival 63 ⟨0, 0⟩ order).wellFormed = false := by decide

/-! ### Frames and requests, written out from R27 to R30, R161 and R162 (checks by hand from R30's recipe) -/

/-- ROLL from 3: class 10, origin 000011, state 010, size 000011, occupancy 000100, check 0xA7. -/
theorem test_roll_bits : receive
    [true, false, false, false, false, false, true, true, false, true, false, false, false, false, false, true, true,
     false, false, false, true, false, false, true, false, true, false, false, true, true, true] =
    .good ⟨3, .roll ⟨2, 3, 4⟩⟩ := by decide +kernel

/-- MARK from 62, boundary 2^32 - 1, age 40: four fill bits after runs of seven recessive bits, check 0xE0. -/
theorem test_mark_bits : receive
    ([false, false] ++ bitsOf 62#6 ++
      [true, true, true, true, true, true, true, false, true, true, true, true, true, true, true, false,
       true, true, true, true, true, true, true, false, true, true, true, true, true, true, true, false,
       true, true, true, true] ++ bitsOf 40#16 ++ bitsOf 0xE0#8) =
    .good ⟨62, .mark ⟨4294967295, 40⟩⟩ := by decide +kernel

/-- EVENT from 41 with value 700: timed, has-value, no restart, repeat 01, sequence 200, tag 610, time 528,000. -/
theorem test_event_bits : receive
    ([false, true, true, false, true, false, false, true, true, true, false, false, true] ++ bitsOf 200#8 ++
      bitsOf 610#10 ++ bitsOf 528000#32 ++ bitsOf 700#16 ++ bitsOf 0x89#8) =
    .good ⟨41, .event ⟨true, false, 1, 200, 610, 528000, some 700⟩⟩ := by decide +kernel

/-- R39: class 11, a recessive fill bit, a failing check. -/
theorem test_class_eleven : receive [true, true] = .malformed := by decide
theorem test_recessive_fill : receive ([false, false] ++ bitsOf 62#6 ++ List.replicate 8 true) = .malformed := by
  decide +kernel
theorem test_check_error : receive
    [true, false, false, false, false, false, true, true, false, true, false, false, false, false, false, true, true,
     false, false, false, true, false, false, true, false, true, false, false, true, true, false] = .checkError := by
  decide +kernel

/-- R26: one dominant driver makes the line dominant. -/
theorem test_line_level : lineLevel [true, false, true] = false ∧ lineLevel [true, true] = true := by decide

/-- R161, R162: POST of tag 610 with value 700, published. -/
theorem test_post_bytes : requestOf [0x20, 0x02, 0x62, 0x03, 0x02, 0xBC, 0x99] = .post 610 3 700 := by decide
theorem test_write_bytes : requestOf [0x01, 0x00, 0x90, 0x02, 0xAB, 0xCD] = .writeImage 144 2 [0xAB, 0xCD] := by decide
theorem test_unknown_code : requestOf [0x03, 1, 2] = .unknownRequest 0x03 := by decide

/-! ### The port -/

theorem test_write_then_read : (after (.readImage 910 2) (after (.writeImage 910 2 [1, 0xFF]) State.reset)).port.response =
    [0x00, 1, 0xFF] := by decide +kernel
theorem test_write_locked : (after (.writeImage 0 1 [7]) nine).port.response = [0x01] := by decide +kernel
theorem test_write_zero_removes : writeCell (writeCell [] 5 9) 5 0 = [] := by decide

/-- R164, R167: each reason at the first value outside its range, with its item index. -/
theorem test_reasons :
    validate image = none ∧ validate (writeCell image 0 63) = some (1, 0) ∧
      validate (writeCell image 1 17) = some (2, 1) ∧ validate (writeCells image 2 [1, 0]) = some (3, 2) ∧
      validate (writeCell image 8 5) = some (4, 8) ∧ validate (writeCell image 9 15) = some (5, 9) ∧
      validate (writeCell image 10 4) = some (6, 10) ∧ validate (writeCell image 7 0) = some (7, 7) ∧
      validate (writeCell image 128 8) = some (8, 7) ∧ validate (writeCell image 900 1) = some (9, 63) := by
  decide +kernel

theorem test_commit : (after .commit { State.reset with image := image }).ftu =
    { Ftu.reset with station := .listening, listenEnd := 2048 } := by decide +kernel
/-- R165, R166: the fields of the last channel record and of the last trigger entry. -/
theorem test_image_fields :
    (channelConfigAt wired 7).mode = .qualify ∧ (channelConfigAt wired 7).inputTag = 1023 ∧
      trigEntryAt wired 63 = { valid := true, note := false, tag := 1023, filter := .station 62, channel := 7,
                               action := .loadA, offset := 0xFFFFFF, source := .frame, fixed := 0 } := by decide +kernel
theorem test_commit_bad : (after .commit State.reset).port.response = [0x02, 1, 0] := by decide +kernel
theorem test_leave : (after .leave nine).ftu.station = .detached ∧ (after .leave nine).ftu.time = 500000 := by
  decide +kernel
theorem test_post_tag : (after (.post 1024 0 0) nine).port.response = [0x05] := by decide +kernel
theorem test_post_queues : (after (.post 610 3 700) nine).pub.queue =
    [{ tag := 610, occurrence := 500000, value := some 700, timed := true, sequence := none, restart := false,
       copiesSent := 0, faults := 0 }] := by decide +kernel

/-- R172: a LATE record of value 100 at T = 500,000 with every field present. -/
theorem test_record_bytes : recordBytes
    { kind := .late, time := 500000, channel := some 0, origin := some 3, tag := some 80, sequence := some 55,
      value := some 100 } =
    [7, 0x1F, 0x00, 0x07, 0xA1, 0x20, 0, 3, 0, 80, 55, 0, 0, 0, 100, 0] := by decide
theorem test_read_empty : (after .readRecord nine).port.response = [0x04] := by decide +kernel

/-- 10.5, "a burst into a nearly full queue": the read record's place goes to LOST with value 2. -/
theorem test_burst :
    let t := after .recordRemoved { nine with log := fullLog 2, port := { nine.port with readOut := true } }
    t.log.records.length = 64 ∧ t.log.lost = 0 ∧ (t.log.records.getLast?.map Record.value) = some (some 2) := by
  decide +kernel
theorem test_status_length : (after .readStatus nine).port.response.length = 40 := by decide +kernel
theorem test_roster_index : (after (.readRoster 0) nine).port.response = [0x05] := by decide +kernel
theorem test_schedule_read : (after (.readSchedule 0)
      { nine with schedule := [action 500400 .arm none] }).port.response =
    [0, 0x00, 0x07, 0xA2, 0xB0, 2, 1, 0x02, 0, 0, 5, 0, 212, 10, 3] := by decide +kernel
theorem test_channel_index : (after (.readChannel 8) nine).port.response = [0x05] := by decide +kernel
theorem test_unknown_request : (after (.unknownRequest 0x03) nine).port.response = [0x05] := by decide +kernel
theorem test_cut_short : (after .transactionCutShort nine).port.response = [] := by decide +kernel
/-- R161: the two bytes of a READ_ROSTER, then the answer BAD_REQUEST, then zeros; nothing is driven while CS is high. -/
theorem test_sdo_bytes :
    shiftedOut (.readRoster 0) nine 4 = [0, 0, 0x05, 0] ∧ shiftedOut (.readRoster 0) nine 2 = [0, 0] ∧
      sdoAt (.readRoster 0) nine false 2 = .highImpedance := by decide +kernel
/-- R161: the bits of a COMMIT, 0x10, most significant bit first, taken with the eighth of them; one bit less is a
transaction cut short, and the 0x05 of an answer comes out most significant bit first. -/
theorem test_port_bits :
    let high : PortPins := { cs := true, sck := false, sdi := false, reset := true }
    let low : PortPins := { high with cs := false }
    let clock := fun b : Bool => [{ low with sdi := b }, { low with sck := true, sdi := b }]
    let seven := low :: [false, false, false, true, false, false, false].flatMap clock
    commandsOfPins high noShifter (seven ++ clock false) = [.commit] ∧
      commandsOfPins high noShifter (seven ++ [low, high]) = [.transactionCutShort] ∧
      (bitsShiftedOut (.readRoster 0) nine 23).drop 16 = [false, false, false, false, false, true, false] := by
  decide +kernel
theorem test_record_shifted_out : recordShiftedOut 18 = true ∧ recordShiftedOut 17 = false := by decide

/-- R84, R92: the release of the tick comes before the read, whose index 0 is the action that stays. -/
theorem test_read_after_release :
    let s := { releasing (engine .oneShot .idle) .arm none with schedule := [action 500400 .halt none] }
    let t := after (.readSchedule 0) s
    t.due.releasing = [] ∧ (channelOf t 2).state = .starting ∧ t.port.response.take 5 = [0, 0x00, 0x07, 0xA2, 0xB0] := by
  decide +kernel
theorem test_reset_frees_time : (after .startUpReset nine).ftu = Ftu.reset := by decide +kernel
theorem test_reset_high : (after .resetReturnsHigh (after .startUpReset nine)).port.resetLow = false := by decide +kernel

/-! ### Time -/

/-- 1.6, "a step across the wrap of T": d = 356, T = 60, the marker 0. -/
theorem test_step_across_wrap :
    let s := { station 3 .synced 4294967000 with params := { nine.params with k := 12, window := 500, latency := 20 } }
    let t := after (.markArrival 7 ⟨0, 40⟩ order) (hearing s)
    t.ftu.time = 60 ∧ t.ftu.marker = some 0 ∧ t.ftu.stall = 0 := by decide +kernel

/-- 1.6, "a stall replaced by a later mark": d = -60, then d = -58 with 35 left. -/
theorem test_stall_replaced :
    let s := station 3 .synced 1024100
    (after (.markArrival 12 ⟨1024000, 10⟩ order) (hearing s)).ftu.stall = 60 ∧
      (after (.markArrival 7 ⟨1024000, 12⟩ order) (hearing { s with ftu := { s.ftu with stall := 35 } })).ftu.stall = 58 := by
  decide +kernel

theorem test_fabric_tick_wraps : (after (.fabricTick ⟨0, []⟩) (station 3 .synced 4294967295)).ftu.time = 0 ∧
    (after (.fabricTick ⟨0, []⟩) (station 3 .synced 4294967295)).due.ftuBoundary = true := by decide +kernel
theorem test_swallowed_tick :
    let s := { nine with ftu := { nine.ftu with stall := 1 } }
    (after .swallowedTick s).ftu.time = 500000 ∧ (after .swallowedTick s).ftu.stall = 0 := by decide +kernel
theorem test_boundary_raises : (after .boundaryReached
      { station 3 .synced 2048 with due := { Due.none with ftuBoundary := true, liuBoundary := true } }).pub.markSlot =
    some ⟨2048, 0⟩ := by decide +kernel

/-- DISCORD at boundary 500,736 (489 × 1,024), reached by tick and still due; then a mark of this age for 499,712, and
BOUNDARY_REACHED behind it. -/
def boundaryOfEndedSpell (age : Half) : State :=
  after .boundaryReached (after (.markArrival 7 ⟨499712, age⟩ order)
    (hearing { station 3 .discord 500736 with due := { Due.none with ftuBoundary := true, liuBoundary := true } }))

/-- R18, R22: an in-window mark (d = -10, 0 and 10) ends the spell, and the boundary reached within it raises no
request: neither in the step of d = 10, which takes the instant first, nor at a later BOUNDARY_REACHED. -/
theorem test_boundary_of_ended_spell : ([984, 994, 1004].map fun age =>
      ((boundaryOfEndedSpell age).ftu.station, (boundaryOfEndedSpell age).ftu.time, (boundaryOfEndedSpell age).pub.markSlot)) =
    [(.synced, 500736, none), (.synced, 500736, none), (.synced, 500746, none)] := by decide +kernel

theorem test_unmute : (after .lineUnmute
      { station 3 .synced 2048 with
        due := { Due.none with liuBoundary := true }
        liu := { nine.liu with muted := true, muteLeft := 1 } }).liu.muted = false := by decide +kernel
theorem test_listen_end :
    let s := station 3 .listening 2048
    (after .listenEnd { s with ftu := { s.ftu with listenEnd := 2048 } }).ftu.station = .synced := by decide +kernel

/-- 3.3, "aging with a roll interval of 8": at 528,896 origin 33 leaves with value 500, and station 20 rolls. -/
theorem test_aging :
    let s := { station 20 .synced 528896 with
      roster := [peer 3 515, peer 33 500, peer 41 515], due := { Due.none with midEpoch := true } }
    let t := after (.midEpochInstant true) { s with ftu := { s.ftu with marker := some 528384 } }
    t.roster.map RosterEntry.origin = [3, 41] ∧ t.pub.rollSlot = some ⟨0⟩ ∧
      t.log.records.map (fun r => (r.kind, r.origin, r.value)) = [(.peerLost, some 33, some 500)] := by decide +kernel

/-! ### The schedule -/

/-- 5.3, "placement against a short list": LOAD_A stands after the HALT of the same due time; 200 > 150 expires. -/
theorem test_placement :
    let s := { nine with schedule := [action 500400 .arm none, action 501000 .halt none, action 503000 .snap none] }
    (placeAction (action 501000 .loadA (some 700)) s).schedule.map PendingAction.action = [.arm, .halt, .loadA, .snap] ∧
      (placeAction (action 499800 .arm none) s).log.records.map Record.kind = [.expired] ∧
      (placeAction (action 499900 .correct (some 40)) s).log.records.map Record.value = [some 100] := by decide +kernel

/-- 5.4, "filling to displacement": newcomers A, B and C against a full list at T = 1,000,000. -/
theorem test_displacement :
    let full := (List.range 32).map fun n => action (BitVec.ofNat 32 (1000100 + 100 * n)) .snap none
    let s := { station 14 .synced 1000000 with schedule := full }
    let b := placeAction (action 1002050 .snap none) s
    (placeAction (action 1003200 .snap none) s).log.records.map (fun r => (r.kind, r.value)) =
        [(.refused, some 1003200)] ∧
      b.log.records.map (fun r => (r.kind, r.value)) = [(.displaced, some 1003200)] ∧
      b.schedule.length = 32 ∧ (b.schedule[20]?.map PendingAction.due) = some 1002050 ∧
      (placeAction (action 1003150 .snap none) b).schedule = b.schedule := by decide +kernel

/-- 5.6, "a step over pending actions": three are released and counted as stepped, one stays. -/
theorem test_step_release :
    let s := { station 3 .synced 2000000 with schedule := [action 2000050 .arm none, action 2000120 .halt none,
                                                            action 2000120 .arm none, action 2000400 .snap none] }
    let t := forwardStep 120 order s
    t.schedule.map PendingAction.due = [2000400] ∧ t.counters.stepped = 3 ∧ t.ftu.time = 2000120 := by decide +kernel

theorem test_release_snap : (channelOf (after .release (releasing { engine .oneShot .active with counter := 7 } .snap none))
    2).measureValue = 7 := by decide +kernel

/-! ### The line -/

theorem test_line_idle_offers : (after .lineIdle { nine with pub := { nine.pub with rollSlot := some ⟨0⟩ } }).liu.offer =
    some .roll := by decide +kernel
theorem test_start_bit : (after .startBit (idle nine)).liu.rx = .taking := by decide +kernel
/-- These levels, one each bit time. -/
def levels (bits : List LineBit) : List BitTime := bits.map fun b => { level := b, early := false, order := order }

/-- Nothing taken or sent yet. -/
def noBits : FrameBits := { taken := [], sent := 0 }

/-- R38: nine recessive bit times and a dominant one start the count again; ten in a row make the line idle. -/
theorem test_ten_recessive_bits :
    let nineBits := List.replicate 9 true
    let t := bitTimes (levels (nineBits ++ [false])) (nine, noBits)
    let u := bitTimes (levels (nineBits ++ [false, true] ++ nineBits)) (nine, noBits)
    t.1 = [] ∧ t.2.1.liu.recessive = 0 ∧ t.2.1.liu.rx = .seeking ∧ u.1 = [.lineIdle] ∧ u.2.1.liu.rx = .waiting := by
  decide +kernel

/-- R38: the recessive bits inside a frame are not counted, those after its last check bit are. -/
theorem test_frame_by_bits :
    let frame := lineBits { origin := 7, body := .roll ⟨2, 3, 4⟩ }
    let t := bitTimes (levels (frame ++ [true])) (idle nine, noBits)
    t.1 = [.startBit, .rollArrival 7 ⟨2, 3, 4⟩] ∧ t.2.1.liu.rx = .seeking ∧ t.2.1.liu.recessive = 1 := by decide +kernel

/-- Chapter 2.9: station 9's EVENT meets station 3's, drives recessive at position 5, reads dominant and loses. -/
theorem test_loss_by_bits :
    let s := idle { nine with pub := { nine.pub with queue := [item none 0 0] } }
    let t := bitTimes (levels [false, false, true, false, false, false])
      ({ s with liu := { s.liu with offer := some .event } }, noBits)
    t.1 = [.transmissionAttempt, .lostArbitration 5] ∧ t.2.1.liu.tx = .ready ∧ t.2.1.liu.rx = .taking := by decide +kernel

theorem test_attempt_sequence :
    let s := idle { nine with pub := { nine.pub with queue := [item none 0 0], restartPending := true } }
    let t := after .transmissionAttempt { s with liu := { s.liu with offer := some .event } }
    t.liu.tx = .head ∧ t.pub.ownSequence = 1 ∧ t.pub.restartPending = false := by decide +kernel

/-- R24: W = 200, so an age of 201 withdraws the request. -/
theorem test_aged_mark :
    let s := idle { nine with pub := { nine.pub with markSlot := some ⟨499799, 0⟩ } }
    let t := after .transmissionAttempt { s with liu := { s.liu with offer := some (.mark 499799) } }
    t.liu.tx = .ready ∧ t.pub.markSlot = none := by decide +kernel

/-- R32: a ROLL of station 9 drives recessive at position 1; EVENT and MARK frames begin with dominant 0. -/
theorem test_lost : (after (.lostArbitration 1) (sending .roll (.roll ⟨2, 0, 0⟩) .head false true nine)).liu.tx =
    .ready := by decide +kernel
theorem test_not_lost : (after (.lostArbitration 1) (sending .mark (.mark ⟨0, 0⟩) .head false true nine)).liu.tx =
    .head := by decide +kernel
theorem test_won : (after .wonArbitration (sending .roll (.roll ⟨2, 0, 0⟩) .head false true nine)).liu.tx = .body := by
  decide +kernel

/-- R33, R36: the eighth fault mutes for 16 boundaries. -/
theorem test_eighth_fault :
    let s := sending .event (.event ⟨true, false, 0, 1, 610, 0, none⟩) .head false true
      { nine with pub := { nine.pub with queue := [item (some 1) 0 7] } }
    (after (.bitFault 0) s).liu.muteLeft = 16 ∧ (after (.bitFault 0) s).counters.bitFaults = 1 := by decide +kernel
theorem test_last_copy :
    let s := sending .event (.event ⟨true, false, 1, 1, 610, 0, none⟩) .body true true
      { nine with pub := { nine.pub with queue := [item (some 1) 1 3] } }
    (after .completed s).pub.queue = [] := by decide +kernel
theorem test_draining_end : (after .drainingEnd { State.reset with liu := { Liu.reset with tx := .draining } }).liu.tx =
    .off := by decide +kernel
theorem test_discard : (after (.frameDiscarded [true, true]) (hearing nine)).counters.malformed = 1 := by decide +kernel

/-! ### Peers -/

/-- R19: the third out-of-window mark resyncs. -/
theorem test_resync :
    let s := station 3 .discord 500000
    let t := after (.markArrival 7 ⟨1024000, 10⟩ order) (hearing { s with ftu := { s.ftu with discordCount := 2 } })
    t.ftu.time = 1024040 ∧ t.ftu.station = .synced := by decide +kernel

/-- 3.3: an EVENT from 33, whose entry was removed, is accepted by the new entry whatever its sequence. -/
theorem test_event_created :
    let t := after (.eventArrival 33 ⟨true, false, 0, 9, 1, 529000, none⟩) (hearing (station 20 .synced 529100))
    t.roster = [{ peer 33 516 with lastSequence := some 9 }] := by decide +kernel

/-- R55: a distance of 128 is stale, one of 127 is accepted. -/
theorem test_stale :
    judgeEvent false 128 (some 0) = .stale ∧ judgeEvent false 127 (some 0) = .accepted := by decide

/-- 3.3: the ROLL from 3 reports SYNCED, 3, 4. -/
theorem test_roll_reports :
    let t := after (.rollArrival 3 ⟨2, 3, 4⟩) (hearing { station 20 .synced 527950 with roster := [peer 3 514] })
    t.roster = [{ peer 3 514 with lastHeard := 515, reported := some ⟨.synced, 3, 4⟩ }] := by decide +kernel

/-! ### Channels -/

/-- 7.2, "a retriggered pulse": rate tap 4, A = 9; the start at 1,004. -/
def pulse : Channel :=
  { engine .oneShot .starting with
    cfg := { ChannelConfig.reset with mode := .oneShot, rateTap := 1, flags := 3 }, workA := 9, tapDue := true }

theorem test_start_one_shot :
    let t := after (.start 2) (setChannel 2 pulse (station 6 .synced 1004))
    (channelOf t 2).state = .active ∧ (channelOf t 2).counter = 9 ∧ pinDrive (channelOf t 2) = .high ∧
      t.log.records.map (fun r => (r.kind, r.time, r.value)) = [(.chStart, 1004, some 9)] := by decide +kernel
theorem test_one_shot_underflow :
    let t := after (.oneShotUnderflow 2) (setChannel 2 { pulse with state := .active, output := true } (station 6 .synced 1064))
    (channelOf t 2).state = .idle ∧ t.log.records.map Record.kind = [.chEnd] := by decide +kernel
theorem test_lead_underflow :
    let t := after (.leadUnderflow 2) (withEngine { engine .delayed .lead with workA := 7, tapDue := true })
    (channelOf t 2).state = .active ∧ (channelOf t 2).counter = 7 := by decide +kernel
theorem test_delayed_active_underflow :
    let t := after (.delayedActiveUnderflow 2) (withEngine { engine .delayed .active with output := true, tapDue := true })
    (channelOf t 2).state = .idle ∧ (channelOf t 2).output = false := by decide +kernel
theorem test_repeat_underflow :
    let t := after (.repeatUnderflow 2) (withEngine { engine .repeating .running with output := true, workA := 3, tapDue := true })
    (channelOf t 2).output = false ∧ (channelOf t 2).counter = 3 := by decide +kernel
theorem test_phase_a_underflow :
    let t := after (.phaseAUnderflow 2) (withEngine { engine .paired .phaseA with workB := 3, output := true, tapDue := true })
    (channelOf t 2).state = .phaseB ∧ (channelOf t 2).counter = 3 := by decide +kernel

/-- R131: a ready pair with only A staged changes A and keeps B. -/
theorem test_period_boundary :
    let t := after (.periodBoundary 2) (withEngine
      { engine .paired .phaseB with workA := 1, workB := 2, stagedA := some 8, pairReady := true, tapDue := true })
    (channelOf t 2).workA = 8 ∧ (channelOf t 2).workB = 2 ∧ (channelOf t 2).counter = 8 ∧
      (channelOf t 2).pairReady = false := by decide +kernel

/-- A PAIRED channel at a period boundary, and a LOAD_B and a LOAD_A for it with its tap instant between them. -/
def both : State :=
  { withEngine { engine .paired .phaseB with workA := 1, workB := 2, tapDue := true } with
    due := { Due.none with
      releasing := [action 500000 .loadB (some 5), action 500000 .loadA (some 6)], moments := [[], [.tap 2]] } }

/-- R134: a period boundary between the LOAD_B and the LOAD_A of one release: it passes the LOAD_B by, and the pair is
ready for the next one. -/
theorem test_boundary_between :
    let ch := channelOf (after .release both) 2
    ch.state = .phaseA ∧ ch.workB = 2 ∧ ch.stagedB = some 5 ∧ ch.stagedA = some 6 ∧ ch.pairReady = true := by decide +kernel

/-- Channel 2 at its start, whose loopback walk hands this action to channel c, and channel 3 running, with these actions
to be released. -/
def beside (c : ChannelId) (a : Action) (due : List PendingAction) : State :=
  { setChannel 3 { engine .oneShot .active with output := true } (withEngine
      { engine .oneShot .starting with
        cfg := { ChannelConfig.reset with mode := .oneShot, startTag := 610 }, workA := 9, tapDue := true }) with
    table := [{ TrigEntry.cleared with valid := true, tag := 610, channel := c, action := a }]
    due := { Due.none with releasing := due } }

/-- R84, R89: a HALT by the loopback walk of a start comes after the ARM released at the same tick. -/
theorem test_walk_after_release :
    let t := after (.start 2) (beside 3 .halt [{ action 500000 .arm none with channel := 3 }])
    t.due.releasing = [] ∧ (channelOf t 2).state = .active ∧ (channelOf t 3).state = .idle := by decide +kernel

/-- R84, R89: a start whose walk places nothing is taken before the release when the sender has it so: the released LOAD_A
comes too late for it (R103). -/
theorem test_start_before_release :
    let t := after .release (after (.start 2)
      { beside 3 .halt [action 500000 .loadA (some 5)] with table := List.replicate 64 .cleared })
    (channelOf t 2).counter = 9 ∧ (channelOf t 2).workA = 5 := by decide +kernel

/-- R84, R112: a walk that measures its own channel must find it started, and so a start commanded before the release of a
HALT for that channel comes after it, and is cancelled (R103; log entry 5). -/
theorem test_self_walk_after_release :
    let t := after (.start 2) (beside 2 .snap [action 500000 .halt none])
    (channelOf t 2).state = .idle ∧ t.pub.queue = [] ∧ t.due.releasing = [] := by decide +kernel

/-- R103: a walk that halts its own channel finds it started though a LOAD_A is released between: the start comes first. -/
theorem test_self_walk_keeps_start :
    let t := after (.start 2) (beside 2 .halt [action 500000 .loadA (some 5)])
    (channelOf t 2).counter = 9 ∧ (channelOf t 2).workA = 5 ∧ (channelOf t 2).state = .idle := by decide +kernel

/-- Channel 2 at its last underflow, its end tag looped to action `a` on itself, beside the release of action `r`. -/
def looped (mode : Mode) (state : ChannelState) (a r : Action) : State :=
  { releasing { engine mode state with
      cfg := { ChannelConfig.reset with mode := mode, endTag := 610 }, workA := 9, output := state != .phaseB,
      tapDue := true } r (some 5) with
    table := [{ TrigEntry.cleared with valid := true, tag := 610, channel := 2, action := a }] }

/-- R121, R125, right columns: the underflow first, then the HALT that finds IDLE or the CORRECT refused with value 3, then
the looped ARM, which finds IDLE too (R116). -/
theorem test_pulse_underflow_first :
    let t := after (.oneShotUnderflow 2) (looped .oneShot .active .arm .halt)
    let u := after (.delayedActiveUnderflow 2) (looped .delayed .active .arm .correct)
    (channelOf t 2).state = .starting ∧ t.pub.queue.length = 1 ∧ (channelOf u 2).state = .starting ∧
      u.log.records.map (fun r => (r.kind, r.value)) = [(.actionRefused, some 3)] := by decide +kernel

/-- R128, R134, right columns: the underflow first, then the SNAP that measures A as loaded, then the looped HALT. -/
theorem test_snap_after_underflow :
    let t := after (.repeatUnderflow 2) (looped .repeating .running .halt .snap)
    let u := after (.periodBoundary 2) (looped .paired .phaseB .halt .snap)
    (channelOf t 2).measureValue = 9 ∧ (channelOf t 2).state = .idle ∧ (channelOf u 2).measureValue = 9 ∧
      (channelOf u 2).state = .idle := by decide +kernel

/-- R116, R128: a released HALT would keep the looped SNAP from finding RUNNING, so it comes before the underflow. -/
theorem test_halt_before_underflow :
    let t := after (.repeatUnderflow 2) (looped .repeating .running .snap .halt)
    (channelOf t 2).state = .idle ∧ t.pub.queue = [] := by decide +kernel

/-- R84: within a release, the walk of a channel's event waits until the release is over. -/
theorem test_walk_waits_in_release :
    let s := beside 3 .halt [action 500000 .snap none, { action 500000 .arm none with channel := 3 }]
    let t := after .release { s with due := { s.due with moments := [[], [.tap 2]] } }
    (channelOf t 2).state = .active ∧ (channelOf t 2).measureValue = 0 ∧ (channelOf t 3).state = .idle := by decide +kernel

/-- R150: the occurrences of one channel keep their order: where a start's walk waits for the release, the same channel's
capture, whose walk places nothing, waits too. -/
theorem test_channel_order_in_release :
    let cfg := { ChannelConfig.reset with mode := .captureFree, edge := 2, startTag := 610, inputTag := 611 }
    let s := withEngine { engine .captureFree .starting with
      cfg := cfg, tapDue := true, sampled := some false, sampleOpen := true }
    let t := after .release { s with
      table := [{ TrigEntry.cleared with valid := true, tag := 610, channel := 3, action := .halt }]
      due := { Due.none with releasing := [action 500000 .snap none], moments := [[.tap 2, .pin 2 true]] } }
    t.pub.queue.map QueueEntry.tag = [610, 611] ∧ (channelOf t 2).sampled = some true := by decide +kernel

/-- R140: a count left for later is taken by its row: up after an edge in COUNTING, down in ACTIVE. -/
theorem test_late_counts :
    (channelOf (after (.start 2) (withEngine { engine .captureClear .counting with counter := 0, tapDue := true })) 2).counter
        = 1 ∧
      channelOf (after (.oneShotUnderflow 2) (withEngine { engine .oneShot .active with counter := 9, tapDue := true })) 2 =
        { engine .oneShot .active with counter := 8 } := by decide +kernel

/-- 8.1, "a free count across a wrap": counter 4,464 and wrap count 1 give a CAPTURE of 70,000 at a falling edge. -/
theorem test_capture :
    let ch := { engine .captureFree .counting with
      cfg := { ChannelConfig.reset with mode := .captureFree, edge := 1, flags := 4 }
      counter := 4464, wrap := 1, sampled := some true, sampleOpen := true }
    let t := after (.pinChange 2 false) (setChannel 2 ch (station 9 .synced 170000))
    t.log.records.map (fun r => (r.kind, r.value)) = [(.capture, some 70000)] ∧ t.pub.queue = [] := by decide +kernel

/-- 8.3, "qualifying a bouncing contact": the underflow at 8,136 of the run from 8,113. -/
theorem test_qualified :
    let ch := { engine .qualify .qualifying with
      cfg := { ChannelConfig.reset with mode := .qualify, rateTap := 1, activeLevel := 1, flags := 4, inputTag := 610 }
      runStart := 8113, tapDue := true }
    let t := after (.qualified 2) (setChannel 2 ch (station 9 .synced 8136))
    (channelOf t 2).state = .held ∧ t.log.records.map (fun r => (r.time, r.value)) = [(8113, some 23)] ∧
      t.pub.queue.map (fun e => (e.tag, e.occurrence)) = [(610, 8113)] := by decide +kernel

/-- 8.3: the pin rises at 8,101 and the channel qualifies from working A. -/
theorem test_pin_rises :
    let ch := { engine .qualify .watching with
      cfg := { ChannelConfig.reset with mode := .qualify, rateTap := 1, activeLevel := 1 }
      workA := 5, sampled := some false, sampleOpen := true }
    let t := after (.pinChange 2 true) (setChannel 2 ch (station 9 .synced 8101))
    (channelOf t 2).state = .qualifying ∧ (channelOf t 2).counter = 5 ∧ (channelOf t 2).runStart = 8101 := by
  decide +kernel

/-- R135: the count from 65,535 wraps to 0, and the wrap count stops at 255. -/
theorem test_wrap_counts : plainCount { engine .captureFree .counting with counter := 65535, wrap := 255 } =
    { engine .captureFree .counting with wrap := 255 } := by decide

/-! ### The hypotheses of the statements can be met

One theorem for each statement that has hypotheses: a state and operands that meet them, for each clause, at the ends of
the ranges.
-/

/-- Every list full, a stall of W, a paired channel with a pair staged, a full log with one record lost. -/
def busy : State :=
  setChannel 2
    { engine .paired .phaseA with stagedA := some 1, stagedB := some 2, pairReady := true, output := true }
    { nine with
      ftu := { nine.ftu with stall := 200 }
      roster := (List.range 32).map fun n => peer (BitVec.ofNat 6 (10 + n)) 400
      schedule := (List.range 31).map (fun n => action (BitVec.ofNat 32 (500001 + n)) .snap none) ++
        [action (500000 + 0x7FFFFFFF) .snap none]
      pub := { nine.pub with queue := List.replicate 16 (item (some 1) 1 7), markSlot := some ⟨499712, 7⟩, rollSlot := some ⟨7⟩ }
      log := fullLog 1
      image := [(0, 1), (911, 255)]
      pending := [.swallowedTick] }

/-- A muted station whose queue entry caused the mute, with a correction held. -/
def quiet : State :=
  setChannel 2 { engine .delayed .starting with held := some (-65535) }
    { nine with
      ftu := { nine.ftu with station := .holdover, holdoverCount := 255 }
      liu := { nine.liu with muted := true, muteLeft := 16 }
      pub := { nine.pub with queue := [item (some 1) 0 8] }
      pending := [.lineIdle] }

/-- The step answers a next state. -/
def goesOn (s : State) : Bool := match step s with | .next _ => true | .fault _ | .refused _ => false

theorem witness_stepRunsFrontCommand : State.reset.pending = [] := rfl

theorem witness_stepKeepsRecordsAndImage : goesOn busy = true ∧ recordsOk busy ∧ imageOk busy := by decide +kernel
theorem witness_stepKeepsTimeItems :
    goesOn busy = true ∧ countsOk busy ∧ stallOk busy ∧ goesOn quiet = true ∧ countsOk quiet ∧ stallOk quiet := by
  decide +kernel
theorem witness_stepKeepsRoster : goesOn busy = true ∧ rosterOk busy := by decide +kernel
theorem witness_stepKeepsSchedule : goesOn busy = true ∧ scheduleOk busy := by decide +kernel
theorem witness_stepKeepsPublishing :
    goesOn busy = true ∧ queueOk busy ∧ muteOk busy ∧ faultsOk busy ∧ goesOn quiet = true ∧ queueOk quiet ∧ muteOk quiet ∧
      faultsOk quiet := by decide +kernel
theorem witness_stepKeepsChannels :
    goesOn busy = true ∧ channelsOk busy ∧ goesOn quiet = true ∧ channelsOk quiet := by decide +kernel
theorem witness_stepKeepsDetachedQuiet :
    let s := { State.reset with pending := [.drainingEnd], liu := { Liu.reset with tx := .draining } }
    goesOn s = true ∧ detachedOk s ∧ detachedOk nine := by decide +kernel
theorem witness_resetHasInvariants : exec .startUpReset nine = .next (after .startUpReset nine) := rfl
theorem witness_configurationFixedWhileJoined :
    exec .commit nine = .next (after .commit nine) ∧ joined nine = true ∧ Instr.commit ≠ .leave ∧
      Instr.commit ≠ .startUpReset := ⟨rfl, rfl, by decide, by decide⟩
theorem witness_timeMovesOnlyByItsMeans : exec .release nine = .next (after .release nine) := rfl
theorem witness_recordsJoinAtTheTail :
    exec .release nine = .next (after .release nine) ∧ Instr.release ≠ .recordRemoved ∧
      Instr.release ≠ .startUpReset ∧ (after .release nine).log.records.length < 64 := ⟨rfl, by decide, by decide, by decide +kernel⟩
theorem witness_sequenceAssignedAtAttempt :
    exec .release nine = .next (after .release nine) ∧ Instr.release ≠ .startUpReset := ⟨rfl, by decide⟩

theorem witness_frameRoundTrip :
    frameWellFormed ⟨62, .mark ⟨4294967295, 65535⟩⟩ = true ∧ frameWellFormed ⟨1, .roll ⟨4, 32, 32⟩⟩ = true ∧
      frameWellFormed ⟨1, .roll ⟨1, 0, 0⟩⟩ = true ∧
      frameWellFormed ⟨62, .event ⟨true, true, 2, 255, 1023, 4294967295, some 65535⟩⟩ = true ∧ 31 < 32 ∧ 6 < 7 ∧ 7 ≤ 7 ∧
      (EventFields.mk true true 2 255 1023 0 none).value = none ∧
      (EventFields.mk true true 2 255 1023 0 (some 65535)).value = some 65535 := by decide
theorem witness_requestRoundTrip :
    (Instr.writeImage 0 255 (List.replicate 255 7)).wellFormed = true ∧
      (transactionBytes (.writeImage 0 255 (List.replicate 255 7))).map List.length = some 259 ∧
      (Instr.unknownRequest 0x03).wellFormed = true ∧ transactionBytes (.unknownRequest 0x03) = some [0x03] ∧ 0 < 1 ∧
      nine.port.resetLow = false ∧
      (after (.unknownRequest 0x03) nine).port.response[0]? = some 0x05 ∧
      1 + (after (.unknownRequest 0x03) nine).port.response.length ≤ 2 := by
  decide +kernel
/-- The READ_RECORD whose response is out with the last of 144 bits, and not one bit earlier; a byte left incomplete. -/
theorem witness_requestRoundTrip_bits :
    Instr.readRecord.wellFormed = true ∧ transactionBytes .readRecord = some [0x30] ∧
      18 * 8 ≤ ([0x30#8].flatMap bitsOf ++ List.replicate 136 false).length ∧
      ¬ 18 * 8 ≤ ([0x30#8].flatMap bitsOf ++ List.replicate 135 false).length ∧ 7 < 8 * [0x30#8].length := by decide +kernel
theorem witness_requestRoundTrip_answers :
    exec (.unknownRequest 0x03) nine = .next (after (.unknownRequest 0x03) nine) := rfl

theorem witness_latenessIsModular :
    1 ≤ (1#32 - 0#32).toNat ∧ (0x80000000#32 - 0#32).toNat ≤ 2 ^ 31 ∧ 1 ≤ (0x80000000#32 - 0#32).toNat ∧
      (0x7FFFFFFF#32 - 0#32).toNat ≤ 2 ^ 31 - 1 ∧ 1 ≤ (0x7FFFFFFF#32 - 0#32).toNat ∧
      (nine.params.lateLimit.toNat : Int) < lateness (action 499849 .arm none).due nine.ftu.time := by decide +kernel

theorem witness_imageWriteAndRead :
    nine.port.resetLow = false ∧ [7#8].length = (1#8).toNat ∧ joined nine = true ∧ State.reset.port.resetLow = false ∧
      joined State.reset = false ∧ ¬ (1 ≤ (0#8).toNat ∧ (0#16).toNat + (0#8).toNat ≤ 912) ∧
      ¬ (1 ≤ (2#8).toNat ∧ (911#16).toNat + (2#8).toNat ≤ 912) ∧ 1 ≤ (1#8).toNat ∧
      (911#16).toNat + (1#8).toNat ≤ 912 ∧ memoryWf State.reset.image = true := by decide +kernel
theorem witness_commitJoins :
    nine.port.resetLow = false ∧ joined nine = true ∧ joined State.reset = false ∧
      validate State.reset.image = some (1, 0) ∧ validate image = none ∧ validate wired = none ∧
      readCell wired 128 = 0x07 ∧ readCell wired 903 = 62 ∧ readCell wired 904 = 7 ∧ readCell wired 905 = 0x04 ∧
      readCell wired 909 = 0x01 ∧ readCell wired 901 ++ readCell wired 902 = 1023#16 ∧ readCell wired 147 = 64 ∧
      readCell wired 159 = 65 ∧ readCell wired 171 = 0 := by decide +kernel
theorem witness_validationOrder : validate (writeCell image 0 0) = some (1, 0) := by decide +kernel
theorem witness_leaveDetaches :
    let due := releasing { engine .oneShot .active with counter := 7 } .snap none
    nine.port.resetLow = false ∧ joined nine = true ∧ State.reset.port.resetLow = false ∧ joined State.reset = false ∧
      nine.due.releasing = [] ∧ nine.due.moments = [] ∧ due.port.resetLow = false ∧ joined due = true ∧ due.due.releasing.length = 1 := by
  decide +kernel
theorem witness_postIsHandedOn :
    nine.port.resetLow = false ∧ joined nine = true ∧ joined State.reset = false ∧ 1023 < (1024#16).toNat ∧
      3 < (4#8).toNat ∧ (1023#16).toNat ≤ 1023 ∧ (3#8).toNat ≤ 3 := by decide +kernel
theorem witness_recordReadAndRemoved :
    let s := { nine with log := fullLog 65535, port := { nine.port with readOut := true } }
    nine.port.resetLow = false ∧ nine.log.records = [] ∧ nine.port.readOut = false ∧ s.port.resetLow = false ∧
      s.log.records = { kind := .matched, time := 1 } :: List.replicate 63 { kind := .matched, time := 1 } ∧
      s.port.readOut = true := by decide +kernel
theorem witness_statusAndSnapshots :
    nine.port.resetLow = false ∧ nine.roster.length ≤ (0#8).toNat ∧ (busy.roster[(31#8).toNat]?).isSome = true ∧
      nine.schedule.length ≤ (0#8).toNat ∧ (busy.schedule[(31#8).toNat]?).isSome = true ∧ 7 < (8#8).toNat ∧
      nine.due.releasing = [] ∧ nine.due.moments = [] ∧ (releasing (engine .oneShot .active) .snap none).port.resetLow = false := by
  decide +kernel
theorem witness_resetPinAndNoRequest :
    nine.port.resetLow = false ∧ (0x03#8) ∉ [0x01#8, 0x02, 0x10, 0x11, 0x20, 0x30, 0x31, 0x32, 0x33, 0x34] ∧
      (transactionBytes .commit).isSome = true ∧ (after .startUpReset nine).port.resetLow = true := by decide +kernel
theorem witness_attnFollowsQueue :
    let s := { nine with log := { records := [{ kind := .late, time := 1 }], lost := 0 }
                         port := { nine.port with readOut := true } }
    nine.log.records = [] ∧ s.log.records = [{ kind := .late, time := 1 }] ∧ s.port.readOut = true ∧
      exec .recordRemoved s = .next (after .recordRemoved s) ∧
      exec .startUpReset s = .next (after .startUpReset s) := ⟨rfl, rfl, rfl, rfl, rfl⟩

theorem witness_localTicks :
    joined nine = true ∧ nine.ftu.stall = 0 ∧ joined State.reset = false ∧ joined busy = true ∧ busy.ftu.stall ≠ 0 := by
  decide +kernel
theorem witness_settleIsComplete :
    let due := fun muted left => { nine with
      due := { Due.none with liuBoundary := true }, liu := { nine.liu with muted := muted, muteLeft := left } }
    settled nine ∧ nine.due.moments = [] ∧ nine.due.liuBoundary = false ∧ nine.due.releasing = [] ∧ joined nine = true ∧
      (due true 1).liu.muted = true ∧ (due true 1).liu.muteLeft.toNat ≤ 1 ∧ 2 ≤ (due true 2).liu.muteLeft.toNat ∧
      (due false 0).due.liuBoundary = true ∧ (due false 0).liu.muted = false ∧
      (channelOf (withEngine (engine .oneShot .starting)) 2).state = .starting ∧
      (channelOf (withEngine (engine .oneShot .active)) 2).cfg.mode = .oneShot ∧
      (channelOf (withEngine { engine .oneShot .idle with tapDue := true }) 2).tapDue = true := by decide +kernel
theorem witness_tickCountsChannels :
    let tap := fun t : Time => t &&& (1#32 <<< (2 * (1#8).toNat) - 1) = 0
    (engine .captureFree .counting).cfg.mode ≠ .unused ∧ isInputMode .paired = false ∧ tap 1004 ∧ ¬ tap 1005 ∧
      isInputMode .qualify = true ∧ (engine .qualify .watching).sampled = none ∧
      false = ((engine .qualify .watching).cfg.activeLevel != 0) ∧
      ¬ (true = ((engine .qualify .held).cfg.activeLevel != 0)) ∧ (engine .qualify .held).sampled = none ∧
      (engine .captureFree .counting).sampled = none ∧ isInputMode .captureFree = true ∧
      (engine .qualify .qualifying).counter = 0 ∧ ({ engine .paired .phaseA with counter := 1 }).counter ≠ 0 ∧
      ({ engine .qualify .held with sampled := some true }).sampled.isSome = true := by decide
theorem witness_listenEndAndUnmute :
    let s := { nine with due := { Due.none with liuBoundary := true }, liu := { nine.liu with muted := true, muteLeft := 1 } }
    let l := { station 3 .listening 2048 with ftu := { Ftu.reset with station := .listening, time := 2048, listenEnd := 2048 } }
    s.due.liuBoundary = true ∧ s.liu.muted = true ∧ s.liu.muteLeft.toNat ≤ 1 ∧ nine.liu.muted = false ∧
      2 ≤ (2#8).toNat ∧ l.ftu.station = .listening ∧ l.ftu.time = l.ftu.listenEnd ∧ nine.ftu.station ≠ .listening := by
  decide +kernel

/-- At the boundary 2,048 that a tick has reached. -/
def atBoundary (state : StationState) : State :=
  { station 3 state 2048 with due := { Due.none with ftuBoundary := true, liuBoundary := true } }

theorem witness_boundaryRaisesMark :
    let s := atBoundary .synced
    let done := { s with ftu := { s.ftu with marker := some 2048 }, pub := { s.pub with markSlot := some ⟨1024, 0⟩ } }
    let mute := { s with liu := { s.liu with muted := true, muteLeft := 2 } }
    let ends := { atBoundary .listening with
      ftu := { Ftu.reset with station := .listening, time := 2048, listenEnd := 2048 } }
    s.due.ftuBoundary = true ∧ s.ftu.station = .synced ∧ s.liu.muted = false ∧ s.ftu.marker ≠ some s.ftu.time ∧
      done.due.ftuBoundary = true ∧ done.ftu.marker = some done.ftu.time ∧
      signedDifference 1024 done.ftu.time < 0 ∧ (atBoundary .discord).ftu.station = .discord ∧
      (atBoundary .listening).ftu.time ≠ (atBoundary .listening).ftu.listenEnd ∧ mute.pub.markSlot = none ∧
      mute.liu.muted = true ∧ mute.due.liuBoundary = true ∧ 2 ≤ mute.liu.muteLeft.toNat ∧ ends.due.ftuBoundary = true ∧
      ends.ftu.station = .listening ∧ ends.ftu.time = ends.ftu.listenEnd ∧ s.due.liuBoundary = true ∧
      ({ s.liu with muted := true, muteLeft := 1 }).muteLeft.toNat ≤ 1 := by decide +kernel
theorem witness_midEpochJudges :
    ({ nine with due := { Due.none with midEpoch := true } }).due.midEpoch = true ∧ nine.ftu.marker ≠ some 499712 ∧
      nine.ftu.station = .synced ∧ quiet.ftu.marker ≠ some 499712 ∧ quiet.ftu.station = .holdover ∧
      State.reset.ftu.station = .detached := by decide +kernel
theorem witness_rosterAgesAndRolls :
    nine.liu.muted = false ∧ (489#32).toNat % nine.params.rollInterval.toNat =
        nine.params.id.toNat % nine.params.rollInterval.toNat ∧
      (488#32).toNat % nine.params.rollInterval.toNat ≠ nine.params.id.toNat % nine.params.rollInterval.toNat ∧
      quiet.liu.muted = true := by decide +kernel
theorem witness_releaseAppliesInOrder :
    (releasing (engine .oneShot .idle) .arm none).due.releasing = [action 500000 .arm none] ∧
      (releasing (engine .oneShot .idle) .arm none).due.moments = [] ∧ both.due.moments = [[], [.tap 2]] ∧
      both.due.releasing = [action 500000 .loadB (some 5), action 500000 .loadA (some 6)] ∧
      nine.due.releasing = [] ∧ nine.due.moments = [] ∧
      exec .release nine = .next (after .release nine) := ⟨rfl, rfl, rfl, rfl, rfl, rfl, rfl⟩
/-- Each way a moment within a release may go: no occurrence, a walk that waits, one made at once, and one left for later. -/
theorem witness_releaseAppliesInOrder_moments :
    let other := beside 3 .halt []
    let self := beside 2 .halt []
    let none' := { other with table := List.replicate 64 .cleared }
    let o : Occurrence := { channel := 2, tag := 610, time := 500000, value := none }
    let halt := action 500000 .halt none
    (tapEvent 2 both).2 = none ∧ (tapEvent 2 other).2 = some o ∧
      disturbs 2 o (tapEvent 2 other).1 (applyAction halt (tapEvent 2 other).1) = false ∧
      placesAction o (tapEvent 2 other).1 = true ∧ (tapEvent 2 none').2 = some o ∧
      placesAction o (tapEvent 2 none').1 = false ∧ (tapEvent 2 self).2 = some o ∧
      disturbs 2 o (tapEvent 2 self).1 (applyAction halt (tapEvent 2 self).1) = true := by decide +kernel

/-- The channel's state and mode, with the one action to be released. -/
def stands (mode : Mode) (state : ChannelState) (a : Action) (operand : Option Half) : Bool :=
  let s := releasing (engine mode state) a operand
  decide (s.due.releasing = [action 500000 a operand]) && decide (s.due.moments = []) &&
    decide ((channelOf s 2).state = state) && decide ((channelOf s 2).cfg.mode = mode)

theorem witness_armHaltSnapByState :
    stands .oneShot .idle .arm none = true ∧ stands .oneShot .active .arm none = true ∧
      stands .delayed .lead .arm none = true ∧ stands .qualify .idle .halt none = true ∧
      stands .qualify .held .halt none = true ∧ stands .captureFree .counting .snap none = true := by decide +kernel
theorem witness_correctByState :
    stands .oneShot .idle .correct (some 40) = true ∧ stands .delayed .starting .correct (some 40) = true ∧
      stands .delayed .lead .correct (some 0x8000) = true ∧ stands .oneShot .active .correct (some 0x7FFF) = true ∧
      (engine .oneShot .starting).held = none ∧
      ({ engine .oneShot .starting with held := some 65535 } : Channel).held = some 65535 ∧
      (0 : Int) ≤ ((32768#16).toNat : Int) + (0x8000#16).toInt ∧ ((32768#16).toNat : Int) + (0x7FFF#16).toInt ≤ 65535 ∧
      ((32767#16).toNat : Int) + (0x8000#16).toInt < 0 ∧ 65535 < ((32769#16).toNat : Int) + (0x7FFF#16).toInt := by
  decide +kernel
theorem witness_loadSetsOrStages :
    stands .paired .phaseB .loadA (some 700) = true ∧ stands .paired .starting .loadB (some 700) = true ∧
      stands .qualify .held .loadA (some 0) = true ∧ stands .delayed .active .loadB (some 65535) = true := by decide +kernel
theorem witness_walkDerivesActions :
    let e := { TrigEntry.cleared with valid := true, tag := 610, filter := .station 5, source := .frame }
    let n : Notice := { origin := 5, sequence := some 1, tag := 610, value := none, reference := 0 }
    entryMatches 9 e n = true ∧ e.source = .frame ∧ n.value = none ∧ ({ n with value := some 1 }).value = some 1 ∧
      ({ e with source := .fixed }).source = .fixed ∧ TrigEntry.cleared.valid = false ∧
      TrigEntry.cleared.source = .noOperand := by decide
theorem witness_placementByLateness :
    let late := fun due : Time => lateness due nine.ftu.time
    let last := action (500000 + 0x7FFFFFFF) .snap none
    late 500001 < 0 ∧ nine.schedule.length < 32 ∧ busy.schedule = busy.schedule.dropLast ++ [last] ∧
      busy.schedule.length = 32 ∧ distance 500000 (action 500031 .snap none) < distance 500000 last ∧
      distance 500000 last ≤ distance 500000 last ∧ late (500000 + 0x7FFFFFFF) < 0 ∧ late 500000 = 0 ∧ 0 < late 499999 ∧
      late 499850 ≤ nine.params.lateLimit.toNat ∧ (nine.params.lateLimit.toNat : Int) < late 499849 := by decide +kernel
theorem witness_insertionKeepsOrder :
    let s := { nine with schedule := busy.schedule.take 31 }
    lateness (action 500001 .snap none).due s.ftu.time < 0 ∧ s.schedule.length < 32 ∧
      s.schedule.Pairwise (fun x y => distance s.ftu.time x ≤ distance s.ftu.time y) := by decide +kernel

theorem witness_markIsDelivered :
    let s := hearing nine
    let l := hearing (station 3 .listening 500)
    let d := hearing (station 3 .discord 500000)
    joined s = true ∧ s.liu.rx = .taking ∧ s.liu.tx = .ready ∧ validOrigin 62 = true ∧ (62 : StationId) ≠ s.params.id ∧
      s.ftu.station = .synced ∧ inWindow s ⟨499970, 200⟩ = true ∧ inWindow s ⟨499970, 201⟩ = false ∧
      s.due.midEpoch = false ∧ hardSets s ⟨499970, 200⟩ = false ∧ l.ftu.station = .listening ∧
      hardSets l ⟨0, 0⟩ = true ∧ d.ftu.station = .discord ∧ inWindow d ⟨499970, 200⟩ = true ∧
      inWindow d ⟨499970, 201⟩ = false ∧ hardSets { d with ftu := { d.ftu with discordCount := 2 } } ⟨499970, 201⟩ = true ∧
      hardSets s ⟨499770, 0⟩ = false ∧ signedDifference (499770 + 0 + 30) 500000 = -200 ∧
      ({ d with due := { Due.none with ftuBoundary := true } }).due.ftuBoundary = true ∧
      ({ s with due := { Due.none with midEpoch := true } }).due.midEpoch = true := by decide +kernel
theorem witness_hardSetTakesMarkTime :
    ({ nine.ftu with discordCount := 2 }).discordCount = 2 ∧ nine.ftu.discordCount.toNat < 2 ∧
      ({ nine.ftu with discordCount := 1 }).discordCount.toNat < 2 := by decide +kernel
theorem witness_markInOrOutOfWindow :
    nine.ftu.station = .synced ∧ quiet.ftu.station = .holdover ∧ (station 3 .discord 5).ftu.station = .discord := by
  decide +kernel
theorem witness_forwardStepReleases :
    1 ≤ 200 ∧ 200 ≤ nine.params.window.toNat ∧ settled nine ∧ nine.liu.muted = false ∧ quiet.liu.muted = true ∧
      2 ≤ (2#8).toNat ∧ (1#8).toNat ≤ 1 ∧ nine.pub.markSlot = none ∧ signedDifference 1024 2048 < 0 ∧
      0 ≤ signedDifference 2048 2048 := by decide +kernel

theorem witness_ownIdFramesSetAside :
    let s := hearing nine
    joined s = true ∧ s.liu.rx = .taking ∧ s.liu.tx = .ready ∧ validOrigin s.params.id = true ∧ (2#2).toNat ≤ 2 ∧
      1 ≤ (4#3).toNat ∧ (4#3).toNat ≤ 4 ∧ (32#6).toNat ≤ 32 := by decide +kernel
theorem witness_peerUpkeep :
    busy.roster.Pairwise (fun a b => a.origin.toNat < b.origin.toNat) ∧ (∃ e ∈ busy.roster, e.origin = 41) ∧
      (∀ e ∈ busy.roster, e.origin ≠ 42) ∧ 32 ≤ busy.roster.length ∧ (∀ e ∈ nine.roster, e.origin ≠ 42) ∧
      nine.roster.length < 32 := by decide +kernel
theorem witness_eventIsJudged :
    let s := hearing { nine with roster := [{ peer 5 400 with lastSequence := some 200 }, peer 6 400] }
    let full := hearing { nine with roster := busy.roster }
    let u := fun (o : StationId) (s : State) => hearPeer o { s with
      liu := { s.liu with rx := .seeking, recessive := 0 }
      counters := { s.counters with framesReceived := satInc s.counters.framesReceived } }
    joined s = true ∧ s.liu.rx = .taking ∧ s.liu.tx = .ready ∧ validOrigin 5 = true ∧ (2#2).toNat ≤ 2 ∧
      (5 : StationId) ≠ s.params.id ∧ (∀ x ∈ (u 62 full).roster, x.origin ≠ 62) ∧
      ((u 6 s).roster.find? (fun x => x.origin == 6)).map RosterEntry.lastSequence = some none ∧
      ((u 5 s).roster.find? (fun x => x.origin == 5)).map RosterEntry.lastSequence = some (some 200) ∧
      1 ≤ (201#8 - 200#8).toNat ∧ (71#8 - 200#8).toNat ≤ 127 ∧ 128 ≤ (72#8 - 200#8).toNat := by decide +kernel
theorem witness_rollReports :
    let s := hearing { nine with roster := busy.roster }
    joined s = true ∧ s.liu.rx = .taking ∧ s.liu.tx = .ready ∧ validOrigin 62 = true ∧ (62 : StationId) ≠ s.params.id ∧
      (32#6).toNat ≤ 32 ∧ (∀ x ∈ (hearPeer 62 s).roster, x.origin ≠ 62) ∧
      (∃ x ∈ (hearPeer 41 s).roster, x.origin = 41) := by decide +kernel
theorem witness_discardsAreCounted :
    joined (hearing nine) = true ∧ (hearing nine).liu.rx = .taking ∧ (hearing nine).liu.tx = .ready ∧
      receive [true, true] = .malformed ∧ receive (false :: false :: List.replicate 61 false ++ [true]) = .checkError ∧
      receive (withFill 0 (frameBits ⟨1, .roll ⟨1, 0, 0⟩⟩)) = .good ⟨1, .roll ⟨1, 0, 0⟩⟩ ∧ validOrigin 63 = false ∧
      receive [] = .unfinished ∧ frameWellFormed ⟨63, .roll ⟨1, 0, 0⟩⟩ = false ∧
      0x00 ≠ checkOf (contentBits ⟨1, .roll ⟨1, 0, 0⟩⟩) ∧
      0 < (withFill 0 (contentBits ⟨1, .roll ⟨1, 0, 0⟩⟩ ++ bitsOf 0#8)).length ∧
      (let front := [false, false] ++ bitsOf 62#6 ++ List.replicate 7 true
       let rest := bitsOf 0x1FFFFFF#25 ++ bitsOf 40#16 ++ bitsOf 0xE0#8
       contentBits ⟨62, .mark ⟨4294967295, 40⟩⟩ ++ bitsOf 0xE0#8 = front ++ rest ∧ rest ≠ [] ∧
         withFill 0 (front ++ rest) = withFill 0 front ++ false :: withFill 0 rest) ∧
      2 < (3#2).toNat ∧ 4 < (5#3).toNat ∧ 32 < (33#6).toNat ∧ joined State.reset = false := by decide +kernel

theorem witness_idleLineAndStartBit :
    joined nine = true ∧ nine.liu.rx = .seeking ∧ nine.liu.tx = .ready ∧ (idle nine).liu.rx = .waiting ∧
      (hearing nine).liu.rx ≠ .seeking ∧ (hearing nine).liu.rx ≠ .waiting := by decide +kernel
/-- The bit times: each state of the receiver, the count at 9, and what the levels taken can come to. -/
theorem witness_idleLineAndStartBit_bits :
    let roll : Frame := { origin := 62, body := .roll ⟨4, 32, 32⟩ }
    let last := { nine with liu := { nine.liu with recessive := 9 } }
    nine.liu.attempt = none ∧ joined State.reset = false ∧ State.reset.liu.rx = .seeking ∧ nine.liu.recessive = 0 ∧
      last.liu.rx = .seeking ∧ last.liu.recessive + 1 = 10 ∧ (idle nine).liu.offer = none ∧ (hearing nine).liu.rx = .taking ∧
      receive [true] = .unfinished ∧ receive [true, true] = .malformed ∧ frameWellFormed roll = true ∧
      receive (withFill 0 (frameBits roll)) = .good roll := by decide +kernel
theorem witness_idleLineAndStartBit_run :
    (∃ t, exec .lineIdle nine = .next t) ∧ (∃ t, exec .startBit nine = .next t) ∧
      (∃ t, exec (.frameDiscarded [true, true]) nine = .next t) := ⟨⟨_, rfl⟩, ⟨_, rfl⟩, ⟨_, rfl⟩⟩
theorem witness_attemptTakesContents :
    let s := idle { nine with pub := { nine.pub with queue := [item none 0 0] } }
    let offered := fun o => { s with liu := { s.liu with offer := some o } }
    joined s = true ∧ s.liu.tx = .ready ∧ s.liu.rx = .waiting ∧ s.liu.muted = false ∧ s.liu.offer = none ∧
      (offered (.mark 499800)).liu.offer = some (.mark 499800) ∧
      (s.ftu.time - 499800#32).toNat ≤ s.params.window.toNat ∧ s.params.window.toNat < (s.ftu.time - 499799#32).toNat ∧
      s.pub.queue = [item none 0 0] ∧ nine.pub.queue = [] ∧ s.liu.attempt = none ∧ s.pub.rollSlot = none ∧
      busy.pub.rollSlot ≠ none ∧ quiet.liu.muted = true := by decide +kernel
theorem witness_arbitrationAndDraining :
    let f : Frame := { origin := 63, body := .roll ⟨2, 0, 0⟩ }
    let s := sending .roll (.roll ⟨2, 0, 0⟩) .head false true { nine with params := { nine.params with id := 63 } }
    s.liu.attempt = some { item := .roll, frame := f, won := false, pending := true } ∧ s.liu.tx = .head ∧
      (lineBits f)[1]? = some true ∧ (lineBits f)[8]? = some true ∧
      (sending .roll (.roll ⟨2, 0, 0⟩) .draining false true nine).liu.tx = .draining ∧ nine.liu.tx ≠ .draining ∧
      ¬ (1 ≤ 0) := by decide +kernel
/-- The bit times of an own frame: an offered EVENT whose attempt begins on an idle line; bits of it that differ and agree. -/
theorem witness_arbitrationAndDraining_bits :
    let s := idle { nine with pub := { nine.pub with queue := [item none 0 0] } }
    let s := { s with liu := { s.liu with offer := some .event } }
    let t := after .transmissionAttempt { s with liu := { s.liu with recessive := 0 } }
    joined s = true ∧ s.liu.tx = .ready ∧ s.liu.rx = .waiting ∧ s.liu.muted = false ∧ s.liu.offer ≠ none ∧
      s.liu.attempt = none ∧ t.liu.attempt.any (fun a => (lineBits a.frame)[0]? == some false && !a.won) = true ∧
      t.liu.attempt.any (fun a => (lineBits a.frame)[8]? == some true) = true := by decide +kernel
theorem witness_arbitrationAndDraining_run :
    let s := idle { nine with pub := { nine.pub with queue := [item none 0 0] } }
    exec .transmissionAttempt s = .next (after .transmissionAttempt s) := rfl
theorem witness_bitFaultCountsAndMutes :
    let body := FrameBody.event ⟨true, false, 0, 1, 610, 0, none⟩
    let s := fun (i : TxItem) (tx : TxState) (won p : Bool) => sending i body tx won p
      { nine with pub := { nine.pub with queue := [item (some 1) 0 7], markSlot := some ⟨499712, 7⟩, rollSlot := some ⟨7⟩ } }
    canFaultAt ⟨9, body⟩ false 0 = true ∧ canFaultAt ⟨9, body⟩ false 8 = false ∧ canFaultAt ⟨9, body⟩ true 9 = true ∧
      (s .event .head false true).pub.queue = [item (some 1) 0 7] ∧
      (s .event .head false true).liu.attempt = some ⟨.event, ⟨9, body⟩, false, true⟩ ∧
      (s .mark .body true true).pub.markSlot = some ⟨499712, 7⟩ ∧ (s .mark .body true true).liu.tx = .body ∧
      (s .roll .body true false).liu.attempt = some ⟨.roll, ⟨9, body⟩, true, false⟩ ∧
      (s .roll .body true true).pub.rollSlot = some ⟨7⟩ ∧ (s .event .draining true true).liu.tx = .draining ∧
      nine.liu.attempt = none ∧ nine.liu.tx = .ready ∧ State.reset.liu.tx = .off ∧
      canFaultAt ⟨9, body⟩ true 8 = false ∧ canFaultAt ⟨9, body⟩ false 9 = false := by
  decide +kernel
theorem witness_completionSettlesItem :
    let s := sending .mark (.mark ⟨499712, 40⟩) .body true true busy
    s.liu.attempt = some ⟨.mark, ⟨9, .mark ⟨499712, 40⟩⟩, true, true⟩ ∧ s.liu.tx = .body ∧ joined s = true ∧
      s.pub.queue = item (some 1) 1 7 :: List.replicate 15 (item (some 1) 1 7) := by decide +kernel

theorem witness_startInOrder :
    let s := fun mode => withEngine { engine mode .starting with tapDue := true, held := some 65535 }
    ∀ mode ∈ [Mode.oneShot, .delayed, .repeating, .paired, .captureFree, .captureClear, .qualify],
      (channelOf (s mode) 2).tapDue = true ∧ (channelOf (s mode) 2).state = .starting ∧
        (channelOf (s mode) 2).cfg.mode = mode := by decide +kernel
theorem witness_startInOrder_otherwise :
    let ch := { engine .captureFree .counting with counter := 0xFFFF, wrap := 0xFF, tapDue := true }
    ch.tapDue = true ∧ ch.state = .counting ∧ ({ ch with tapDue := false } : Channel).tapDue = false ∧
      (engine .oneShot .active).state ∉ [ChannelState.starting, .counting] := by decide
theorem witness_underflowsByMode_otherwise :
    let ch := { engine .oneShot .active with counter := 1, tapDue := true }
    ch.tapDue = true ∧ ch.cfg.mode = .oneShot ∧ ch.state = .active ∧ ch.counter ≠ 0 ∧
      (engine .oneShot .active).tapDue = false ∧ ch.cfg.mode ≠ .delayed ∧ ch.state ≠ .lead ∧
      ch.cfg.mode ∈ [Mode.oneShot, .delayed, .repeating, .paired] ∧ ch.cfg.idleLevel = 0 ∧
      ({ ch.cfg with idleLevel := 1 } : ChannelConfig).idleLevel = 1 ∧
      (engine .qualify .idle).cfg.mode ∈ [Mode.captureFree, .captureClear, .qualify] ∧
      Channel.reset.cfg.mode = .unused := by decide
theorem witness_underflowsByMode :
    let s := fun mode state output => withEngine { engine mode state with tapDue := true, output := output }
    ∀ x ∈ [(Mode.oneShot, ChannelState.active, true), (.delayed, .active, true), (.delayed, .lead, false),
           (.paired, .phaseA, true), (.repeating, .running, false), (.repeating, .running, true), (.paired, .phaseB, false)],
      let ch := channelOf (s x.1 x.2.1 x.2.2) 2
      ch.tapDue = true ∧ ch.counter = 0 ∧ ch.cfg.mode = x.1 ∧ ch.state = x.2.1 ∧ ch.output = x.2.2 := by decide +kernel
theorem witness_qualifiedIsBackDated :
    let ch := channelOf (withEngine { engine .qualify .qualifying with tapDue := true }) 2
    nine.due.releasing = [] ∧ ch.tapDue = true ∧ ch.cfg.mode = .qualify ∧ ch.state = .qualifying ∧ ch.counter = 0 := by
  decide +kernel
theorem witness_pinChangeIsTaken :
    let ch := fun mode state => channelOf (withEngine { engine mode state with sampled := some true, sampleOpen := true }) 2
    let q := ch .qualify .held
    joined nine = true ∧ q.sampleOpen = true ∧ q.sampled ≠ some false ∧ (ch .paired .idle).cfg.mode = .paired ∧
      (ch .captureClear .counting).state = .counting ∧ (ch .captureClear .counting).cfg.mode = .captureClear ∧
      (ch .captureFree .counting).sampled = some (!false) ∧ (2#8).toNat ≤ 2 ∧ q.cfg.mode = .qualify ∧ q.state = .held ∧
      (ch .qualify .watching).state = .watching ∧ false = (q.cfg.activeLevel != 0) ∧
      ¬ (true = (q.cfg.activeLevel != 0)) ∧ joined State.reset = false := by decide +kernel
theorem witness_occurrenceIsPublished :
    16 ≤ busy.pub.queue.length ∧ nine.pub.queue.length < 16 ∧ (idle nine).liu.tx = .ready ∧
      (idle nine).liu.rx = .waiting ∧ (idle nine).liu.offer = none ∧ (idle nine).liu.muted = false ∧
      nine.liu.rx ≠ .waiting := by decide +kernel
theorem witness_occurrenceIsPublished_release :
    let o : Occurrence := { channel := 2, tag := 610, time := 500000, value := none }
    let other := beside 3 .halt [action 500000 .loadA (some 5)]
    let self := beside 2 .snap [action 500000 .halt none]
    (startEvent 2 nine).2 = none ∧ nine.due.releasing = [] ∧ (startEvent 2 other).2 = some o ∧
      other.due.releasing ≠ [] ∧ placesAction o (startEvent 2 other).1 = true ∧
      disturbs 2 o (startEvent 2 other).1 (releaseDue (startEvent 2 other).1) = false ∧ (startEvent 2 self).2 = some o ∧
      self.due.releasing ≠ [] ∧ placesAction o (startEvent 2 self).1 = true ∧
      disturbs 2 o (startEvent 2 self).1 (releaseDue (startEvent 2 self).1) = true := by decide +kernel

end Sys2Proof.Tests
end

section
/-! Frames that carry the own id (R41, R53): what a delivery to a receiver inside a frame does, and the own-id branch of
the three arrivals.
-/

namespace Sys2Proof.Machine

/-! ### The arms of the arrivals -/

theorem exec_markArrival (origin : StationId) (mark : MarkFields) (order : MarkOrder) (s : State) :
    exec (.markArrival origin mark order) s = execMarkArrival origin mark order s := rfl

theorem exec_eventArrival (origin : StationId) (event : EventFields) (s : State) :
    exec (.eventArrival origin event) s = execEventArrival origin event s := rfl

theorem exec_rollArrival (origin : StationId) (roll : RollFields) (s : State) :
    exec (.rollArrival origin roll) s = execRollArrival origin roll s := rfl

/-! ### Well-formed frames, class by class (R40) -/

theorem frameWellFormed_mark_iff (origin : StationId) (m : MarkFields) :
    frameWellFormed ⟨origin, .mark m⟩ = true ↔ validOrigin origin = true := by
  simp [frameWellFormed]

theorem frameWellFormed_event_iff (origin : StationId) (e : EventFields) :
    frameWellFormed ⟨origin, .event e⟩ = true ↔ validOrigin origin = true ∧ e.repeatIndex.toNat ≤ 2 := by
  simp [frameWellFormed]

theorem frameWellFormed_roll_iff (origin : StationId) (r : RollFields) :
    frameWellFormed ⟨origin, .roll r⟩ = true ↔
      validOrigin origin = true ∧ 1 ≤ r.syncState.toNat ∧ r.syncState.toNat ≤ 4 ∧
        r.rosterSize.toNat ≤ 32 ∧ r.occupancy.toNat ≤ 32 := by
  simp [frameWellFormed, and_assoc]

/-! ### Delivery (R41) -/

/-- The saturated count, with the bound written in place of the count that has reached it (R87). -/
theorem satInc_eq (x : Half) : satInc x = if x = 0xFFFF then 0xFFFF else x + 1 := by
  unfold satInc
  split
  · assumption
  · rfl

theorem receiving_iff (s : State) :
    receiving s = true ↔ joined s = true ∧ s.liu.rx = .taking ∧ s.liu.tx = .ready := by
  simp [receiving, and_assoc]

/-- R41: a frame has been received with a good check; it is counted before either branch of `deliver` takes it. -/
def frameReceived (s : State) : State :=
  count (fun c => { c with framesReceived := satInc c.framesReceived }) (frameEnds s)

/-- R41: a well-formed frame goes, once counted, to the branch that its origin selects. -/
theorem deliver_of_wellFormed {f : Frame} {s : State} (own peer : State → State) (hs : receiving s = true)
    (hf : frameWellFormed f = true) :
    deliver f own peer s = if f.origin = s.params.id then own (frameReceived s) else peer (frameReceived s) := by
  rw [deliver, if_pos hs, if_pos hf]
  rfl

/-- R53: whatever a peer's frame would do, one with the own id takes the other branch. -/
theorem deliver_ownId {body : FrameBody} {s : State} (own peer : State → State) (hs : receiving s = true)
    (hf : frameWellFormed ⟨s.params.id, body⟩ = true) :
    deliver ⟨s.params.id, body⟩ own peer s = own (frameReceived s) := by
  rw [deliver_of_wellFormed own peer hs hf, if_pos rfl]

/-! ### The own-id branch (R53) -/

/-- R53: the frame ends, two counters go up, and nothing else changes. -/
theorem ownIdFrame_frameReceived (s : State) :
    ownIdFrame (frameReceived s) = { s with
      liu := { s.liu with rx := .seeking, recessive := 0 }
      counters := { s.counters with
        framesReceived := if s.counters.framesReceived = 0xFFFF then 0xFFFF else s.counters.framesReceived + 1
        ownId := if s.counters.ownId = 0xFFFF then 0xFFFF else s.counters.ownId + 1 } } := by
  rw [← satInc_eq, ← satInc_eq]
  rfl

/-- R53: a ROLL does what every own-id frame does, and writes ID_CLASH. -/
theorem ownIdRoll_frameReceived (s : State) :
    ownIdRoll (frameReceived s) =
      writeRecord { kind := .idClash, time := s.ftu.time, origin := some s.params.id }
        (ownIdFrame (frameReceived s)) := rfl

/-- Settles O46: one delivery rule for the three classes, with the class's own conditions of R40. -/
theorem ownIdFramesSetAside : Obligations.OwnIdFramesSetAside := by
  intro m order e r s hjoined hrx htx hid u
  have hs : receiving s = true := (receiving_iff s).2 ⟨hjoined, hrx, htx⟩
  have hu : ownIdFrame (frameReceived s) = u := ownIdFrame_frameReceived s
  refine ⟨?mark, fun hrepeat => ?event, fun hlow hhigh hsize hocc => ?roll⟩
  case mark =>
    have hf := (frameWellFormed_mark_iff s.params.id m).2 hid
    rw [exec_markArrival, execMarkArrival, deliver_ownId _ _ hs hf, hu]
  case event =>
    have hf := (frameWellFormed_event_iff s.params.id e).2 ⟨hid, hrepeat⟩
    rw [exec_eventArrival, execEventArrival, deliver_ownId _ _ hs hf, hu]
  case roll =>
    have hf := (frameWellFormed_roll_iff s.params.id r).2 ⟨hid, hlow, hhigh, hsize, hocc⟩
    rw [exec_rollArrival, execRollArrival, deliver_ownId _ _ hs hf, ownIdRoll_frameReceived, hu]

end Sys2Proof.Machine
end

section
/-! The Action Schedule: lateness on the circle of fabric times (R75), and placement ahead of T (R77, R78). -/

namespace Sys2Proof.Machine

/-! ### Lateness on the circle (R75) -/

/-- The two ways round the circle from one time to another make one whole turn, or none. -/
theorem toNat_sub_swap (t due : Time) : (t - due).toNat = (2 ^ 32 - (due - t).toNat) % 2 ^ 32 := by
  bv_omega

theorem lateness_of_behind {due t : Time} (h : (t - due).toNat ≤ 2 ^ 31) : lateness due t = (t - due).toNat := by
  have hturn := toNat_sub_swap t due
  rw [lateness, signedDifference, BitVec.toInt_eq_toNat_cond]
  split <;> omega

theorem lateness_of_ahead {due t : Time} (h : (due - t).toNat < 2 ^ 31) : lateness due t = -((due - t).toNat : Int) := by
  rw [lateness, signedDifference, BitVec.toInt_eq_toNat_of_lt (by omega)]

/-- R75: a due time is at most half a turn behind T, or less than half a turn ahead of it. -/
theorem lateness_cases (due t : Time) :
    ((t - due).toNat ≤ 2 ^ 31 ∧ lateness due t = (t - due).toNat) ∨
      (1 ≤ (due - t).toNat ∧ (due - t).toNat < 2 ^ 31 ∧ lateness due t = -((due - t).toNat : Int)) := by
  have hturn := toNat_sub_swap t due
  by_cases hbehind : (t - due).toNat ≤ 2 ^ 31
  · exact .inl ⟨hbehind, lateness_of_behind hbehind⟩
  · have hahead : (due - t).toNat < 2 ^ 31 := by omega
    exact .inr ⟨by omega, hahead, lateness_of_ahead hahead⟩

theorem lateness_self (t : Time) : lateness t t = 0 := by
  simp [lateness, signedDifference]

theorem lateness_pos_iff (due t : Time) :
    0 < lateness due t ↔ 1 ≤ (t - due).toNat ∧ (t - due).toNat ≤ 2 ^ 31 := by
  have hturn := toNat_sub_swap t due
  obtain ⟨hbehind, hlate⟩ | ⟨hpos, hahead, hlate⟩ := lateness_cases due t <;> omega

theorem lateness_neg_iff (due t : Time) :
    lateness due t < 0 ↔ 1 ≤ (due - t).toNat ∧ (due - t).toNat ≤ 2 ^ 31 - 1 := by
  have hturn := toNat_sub_swap t due
  obtain ⟨hbehind, hlate⟩ | ⟨hpos, hahead, hlate⟩ := lateness_cases due t <;> omega

theorem lateness_range (due t : Time) : -(2 ^ 31 - 1) ≤ lateness due t ∧ lateness due t ≤ 2 ^ 31 := by
  obtain ⟨hbehind, hlate⟩ | ⟨hpos, hahead, hlate⟩ := lateness_cases due t <;> omega

/-- R75: the point opposite T counts as behind it. -/
theorem lateness_opposite (t : Time) : lateness (t + 0x80000000) t = 2 ^ 31 := by
  have hahead : t + 0x80000000 - t = 0x80000000 := by bv_omega
  rw [lateness, signedDifference, hahead]
  decide

/-! ### Placement by lateness (R77) -/

theorem placeAction_insert {a : PendingAction} {s : State} (hahead : lateness a.due s.ftu.time < 0)
    (hroom : s.schedule.length < Config.scheduleCapacity) :
    placeAction a s = { s with schedule := insertAction s.ftu.time a s.schedule } := by
  simp only [placeAction, if_pos hahead, if_pos hroom]

theorem placeAction_expired {a : PendingAction} {s : State}
    (h : (s.params.lateLimit.toNat : Int) < lateness a.due s.ftu.time) :
    placeAction a s =
      writeRecord (scheduleRecord .expired a (BitVec.ofInt 32 (lateness a.due s.ftu.time)) s) s := by
  have hnonneg : ¬ lateness a.due s.ftu.time < 0 := by omega
  have hnonzero : ¬ lateness a.due s.ftu.time = 0 := by omega
  simp only [placeAction, if_neg hnonneg, if_neg hnonzero, if_neg (Int.not_le.2 h)]

/-- Settles O18: the circle has a half behind T, the opposite point included, and a half ahead of it. -/
theorem latenessIsModular : Obligations.LatenessIsModular := by
  exact ⟨lateness_self, fun _ _ _ hbehind => lateness_of_behind hbehind,
    fun _ _ _ hahead => lateness_of_ahead (by omega), lateness_pos_iff, lateness_neg_iff, lateness_range,
    lateness_opposite, by decide, by decide, fun _ _ => placeAction_expired⟩

/-! ### Insertion (R78) -/

/-- R78: in a list in order, the inserted action parts the entries at no greater distance from the others. -/
theorem insertAction_parts (t : Time) (a : PendingAction) (l : List PendingAction)
    (hl : l.Pairwise fun x y => distance t x ≤ distance t y) :
    ∃ front back, l = front ++ back ∧ insertAction t a l = front ++ a :: back ∧
      (∀ x ∈ front, distance t x ≤ distance t a) ∧ (∀ x ∈ back, distance t a < distance t x) := by
  induction l with
  | nil => exact ⟨[], [], rfl, rfl, by simp, by simp⟩
  | cons b bs ih =>
    obtain ⟨hb, hbs⟩ := List.pairwise_cons.1 hl
    by_cases hle : distance t b ≤ distance t a
    · obtain ⟨front, back, hsplit, hinsert, hfront, hback⟩ := ih hbs
      refine ⟨b :: front, back, by rw [hsplit, List.cons_append], ?_, ?_, hback⟩
      · rw [insertAction, if_pos hle, hinsert, List.cons_append]
      · exact List.forall_mem_cons.2 ⟨hle, hfront⟩
    · have hlt : distance t a < distance t b := Nat.not_le.1 hle
      refine ⟨[], b :: bs, rfl, by rw [insertAction, if_neg hle, List.nil_append], by simp, ?_⟩
      exact List.forall_mem_cons.2 ⟨hlt, fun x hx => Nat.lt_of_lt_of_le hlt (hb x hx)⟩

/-- Settles O41: placement ahead of T with room is the insertion, and the insertion parts the list by distance. -/
theorem insertionKeepsOrder : Obligations.InsertionKeepsOrder := by
  intro a s hahead hroom hsorted
  obtain ⟨front, back, hsplit, hinsert, hfront, hback⟩ := insertAction_parts s.ftu.time a s.schedule hsorted
  refine ⟨front, back, hsplit, ?_, hfront, hback⟩
  rw [placeAction_insert hahead hroom, hinsert]

end Sys2Proof.Machine
end

section
/-! The ATTN output (R173): its level read from the record queue, and what a record written, a record removed and a
start-up reset make of it.
-/

namespace Sys2Proof.Machine

/-! ### The arms of RECORD_REMOVED and START_UP_RESET -/

theorem exec_recordRemoved (s : State) : exec .recordRemoved s = execRecordRemoved s := rfl

theorem exec_startUpReset (s : State) : exec .startUpReset s = execStartUpReset s := rfl

/-! ### The level and the queue (R173) -/

theorem attnLow_iff (s : State) : attnLow s = true ↔ s.log.records ≠ [] := by simp [attnLow]

theorem attnLow_eq_false_iff (s : State) : attnLow s = false ↔ s.log.records = [] := by simp [attnLow]

/-! ### A record joins (R170) -/

/-- With room the record is in the queue, and a queue without room holds 64. -/
theorem pushRecord_records_ne_nil (r : Record) (l : RecordLog) : (pushRecord r l).records ≠ [] := by
  by_cases hroom : l.records.length < Config.recordCapacity
  · simp [pushRecord, hroom]
  · have hfull : 0 < l.records.length := Nat.lt_of_lt_of_le (by decide) (Nat.not_lt.1 hroom)
    simpa [pushRecord, hroom] using List.length_pos_iff.1 hfull

theorem attnLow_writeRecord (r : Record) (s : State) : attnLow (writeRecord r s) = true := by
  rw [attnLow_iff, writeRecord_log]
  exact pushRecord_records_ne_nil r s.log

/-! ### A record leaves (R171) -/

theorem execRecordRemoved_of_readOut {s : State} (hread : s.port.readOut = true) (hne : s.log.records ≠ []) :
    execRecordRemoved s = .next (removeRecord s) := by
  simp [execRecordRemoved, hread, hne]

/-- The queue is empty after a removal where no other record waited and no LOST record takes the freed place. -/
theorem removeRecord_records_eq_nil_iff (s : State) :
    (removeRecord s).log.records = [] ↔ s.log.records.tail = [] ∧ s.log.lost = 0 := by
  by_cases hlost : s.log.lost = 0#16
  · simp [removeRecord, hlost]
  · simp [removeRecord, hlost]

/-- Settles O27: the level is read from the queue, a record written leaves none empty, and the removal of the only
record empties the queue unless a LOST record joins. -/
theorem attnFollowsQueue : Obligations.AttnFollowsQueue := by
  refine ⟨attnLow_iff, fun r s hempty => ⟨(attnLow_eq_false_iff s).2 hempty, attnLow_writeRecord r s⟩, ?removed, ?reset⟩
  case removed =>
    intro r s t hone hread hstep
    have hne : s.log.records ≠ [] := by simp [hone]
    rw [exec_recordRemoved, execRecordRemoved_of_readOut hread hne] at hstep
    obtain rfl : removeRecord s = t := by injection hstep
    rw [attnLow_eq_false_iff, removeRecord_records_eq_nil_iff, hone]
    simp
  case reset =>
    intro s t hstep
    rw [exec_startUpReset, execStartUpReset] at hstep
    injection hstep with ht
    rw [← ht, attnLow_eq_false_iff]
    rfl

end Sys2Proof.Machine
end

section
/-! The state that a command leaves, and how a property of the state passes from commands to steps. -/

namespace Sys2Proof.Machine

-- Proofs elaborated side by side need more threads than the memory limit of the check holds.
set_option Elab.async false

/-- No command stops the station. -/
theorem exec_eq_next (c : Instr) (s : State) : exec c s = .next (runCommand s c) := by
  cases c <;> rfl

theorem exec_next_iff {c : Instr} {s t : State} : exec c s = .next t ↔ runCommand s c = t := by
  rw [exec_eq_next]
  exact ⟨fun h => by injection h, fun h => by rw [h]⟩

/-- A step idles, or it is the run of the command at the front of the queue. -/
theorem step_cases {s t : State} (h : step s = .next t) :
    t = s ∨ ∃ c rest, t = runCommand { s with pending := rest } c := by
  unfold step at h
  split at h
  · injection h with h; exact .inl h.symm
  · next c rest _ => exact .inr ⟨c, rest, (exec_next_iff.1 h).symm⟩

/-- A property that does not look at the waiting commands and that every command keeps is kept by every step. -/
theorem step_keeps {P : State → Prop} (hpending : ∀ s rest, P s → P { s with pending := rest })
    (hrun : ∀ s c, P s → P (runCommand s c)) {s t : State} (hs : P s) (h : step s = .next t) : P t := by
  obtain rfl | ⟨c, rest, rfl⟩ := step_cases h
  · exact hs
  · exact hrun _ c (hpending s rest hs)

end Sys2Proof.Machine
end

section
/-! What the working operations of the blocks keep: each invariant of Sys2Proof/Safety.lean by its component, said once for
every operation, so that a command's proof composes the operations it is made of.
-/

namespace Sys2Proof.Machine

-- Proofs elaborated side by side need more threads than the memory limit of the check holds.
set_option Elab.async false

/-! ### The record log (R170) -/

/-- The bounds of R170 on a log. -/
def LogBounded (l : RecordLog) : Prop :=
  l.records.length ≤ Config.recordCapacity ∧ (l.lost ≠ 0 → l.records.length = Config.recordCapacity)

/-- R170: records join at the tail, and a record is lost only where the queue is full. -/
structure LogGrows (old new : RecordLog) : Prop where
  isPrefix : old.records <+: new.records
  lost : old.lost.toNat ≤ new.lost.toNat
  room : new.records.length < Config.recordCapacity → new.lost = old.lost
  bounded : LogBounded old → LogBounded new

theorem LogGrows.refl (l : RecordLog) : LogGrows l l := ⟨List.prefix_rfl, Nat.le_refl _, fun _ => rfl, id⟩

theorem LogGrows.trans {l m n : RecordLog} (h : LogGrows l m) (k : LogGrows m n) : LogGrows l n where
  isPrefix := h.isPrefix.trans k.isPrefix
  lost := Nat.le_trans h.lost k.lost
  room hroom := (k.room hroom).trans (h.room (Nat.lt_of_le_of_lt k.isPrefix.length_le hroom))
  bounded := k.bounded ∘ h.bounded

theorem toNat_le_satInc (x : Half) : x.toNat ≤ (satInc x).toNat := by
  unfold satInc
  split
  · exact Nat.le_refl _
  · bv_omega

theorem LogGrows.push (r : Record) (l : RecordLog) : LogGrows l (pushRecord r l) := by
  unfold pushRecord
  split
  · next hroom =>
    refine ⟨List.prefix_append .., Nat.le_refl _, fun _ => rfl, fun ⟨_, hlost⟩ => ?_⟩
    have hzero : l.lost = 0 := Decidable.byContradiction fun h => by have := hlost h; omega
    exact ⟨by rw [List.length_append]; exact hroom, fun h => absurd hzero h⟩
  · next hfull =>
    refine ⟨List.prefix_rfl, toNat_le_satInc _, fun h => absurd h hfull, fun ⟨hle, _⟩ => ⟨hle, fun _ => ?_⟩⟩
    show l.records.length = _
    omega

/-! ### One channel (R97) -/

/-- What an operation within an instant makes of a channel: its configuration stays, it keeps to its mode, and no tap
instant and no open sample appears that was not there. -/
structure ChannelMove (old new : Channel) : Prop where
  cfg : new.cfg = old.cfg
  ok : channelOk old → channelOk new
  tapDue : new.tapDue = true → old.tapDue = true
  sample : new.sampleOpen = true → old.sampleOpen = true ∧ new.sampled = old.sampled

theorem ChannelMove.refl (ch : Channel) : ChannelMove ch ch := ⟨rfl, id, id, fun h => ⟨h, rfl⟩⟩

theorem ChannelMove.trans {a b c : Channel} (h : ChannelMove a b) (k : ChannelMove b c) : ChannelMove a c where
  cfg := k.cfg.trans h.cfg
  ok := k.ok ∘ h.ok
  tapDue := h.tapDue ∘ k.tapDue
  sample hopen :=
    have hb := k.sample hopen
    have ha := h.sample hb.1
    ⟨ha.1, hb.2.trans ha.2⟩

/-! ### The relation -/

/-- R22, R35, R36, R152, R156: the bounds of Publishing and of mute. -/
abbrev publishingOk (s : State) : Prop := queueOk s ∧ muteOk s ∧ faultsOk s

/-- What every operation of a working station keeps: nothing but LEAVE, RESET, COMMIT, a tick and the port's own requests
does more. -/
structure Works (s t : State) : Prop where
  log : LogGrows s.log t.log
  channels : ∀ c, ChannelMove (channelOf s c) (channelOf t c)
  roster : rosterOk s → rosterOk t
  publishing : publishingOk s → publishingOk t
  ownSequence : t.pub.ownSequence = s.pub.ownSequence
  staysJoined : joined s = true → joined t = true
  params : t.params = s.params
  table : t.table = s.table
  image : t.image = s.image
  pending : t.pending = s.pending
  ftuDue : t.due.ftuBoundary = true → s.due.ftuBoundary = true
  liuDue : t.due.liuBoundary = true → s.due.liuBoundary = true
  midDue : t.due.midEpoch = true → s.due.midEpoch = true
  releasing : s.due.releasing = [] → t.due.releasing = []
  moments : s.due.moments = [] → t.due.moments = []

theorem Works.refl (s : State) : Works s s :=
  ⟨.refl _, fun _ => .refl _, id, id, rfl, id, rfl, rfl, rfl, rfl, id, id, id, id, id⟩

theorem Works.trans {s t u : State} (h : Works s t) (k : Works t u) : Works s u where
  log := h.log.trans k.log
  channels c := (h.channels c).trans (k.channels c)
  roster := k.roster ∘ h.roster
  publishing := k.publishing ∘ h.publishing
  ownSequence := k.ownSequence.trans h.ownSequence
  staysJoined := k.staysJoined ∘ h.staysJoined
  params := k.params.trans h.params
  table := k.table.trans h.table
  image := k.image.trans h.image
  pending := k.pending.trans h.pending
  ftuDue := h.ftuDue ∘ k.ftuDue
  liuDue := h.liuDue ∘ k.liuDue
  midDue := h.midDue ∘ k.midDue
  releasing := k.releasing ∘ h.releasing
  moments := k.moments ∘ h.moments

/-- Work within an instant that leaves the FTU alone: the order of the schedule around T is kept. -/
structure Within (s t : State) : Prop extends Works s t where
  ftu : t.ftu = s.ftu
  schedule : scheduleOk s → scheduleOk t

theorem Within.refl (s : State) : Within s s := ⟨.refl s, rfl, id⟩

theorem Within.trans {s t u : State} (h : Within s t) (k : Within t u) : Within s u :=
  ⟨h.toWorks.trans k.toWorks, k.ftu.trans h.ftu, k.schedule ∘ h.schedule⟩

/-! ### One component changed -/

theorem Within.writeRecord (r : Record) (s : State) : Within s (writeRecord r s) := by
  rw [writeRecord_eq]
  exact ⟨⟨.push r s.log, fun _ => .refl _, id, id, rfl, id, rfl, rfl, rfl, rfl, id, id, id, id, id⟩, rfl, id⟩

theorem Within.setChannel {c : ChannelId} {ch : Channel} {s : State} (h : ChannelMove (channelOf s c) ch) :
    Within s (setChannel c ch s) := by
  refine ⟨⟨.refl _, fun d => ?_, id, id, rfl, id, rfl, rfl, rfl, rfl, id, id, id, id, id⟩, rfl, id⟩
  by_cases hd : d = c
  · subst hd; rwa [channelOf_setChannel_self]
  · rw [channelOf_setChannel_ne hd]; exact .refl _

theorem Within.setSchedule {l : List PendingAction} {s : State} (h : scheduleOk s → scheduleOk { s with schedule := l }) :
    Within s { s with schedule := l } :=
  ⟨⟨.refl _, fun _ => .refl _, id, id, rfl, id, rfl, rfl, rfl, rfl, id, id, id, id, id⟩, rfl, h⟩

theorem Within.setRoster {l : List RosterEntry} {s : State} (h : rosterOk s → rosterOk { s with roster := l }) :
    Within s { s with roster := l } :=
  ⟨⟨.refl _, fun _ => .refl _, h, id, rfl, id, rfl, rfl, rfl, rfl, id, id, id, id, id⟩, rfl, id⟩

theorem Within.setCounters (k : Counters) (s : State) : Within s { s with counters := k } :=
  ⟨⟨.refl _, fun _ => .refl _, id, id, rfl, id, rfl, rfl, rfl, rfl, id, id, id, id, id⟩, rfl, id⟩

theorem Within.count (f : Counters → Counters) (s : State) : Within s (count f s) := .setCounters _ s

theorem Within.setPins (p : BitVec 8) (s : State) : Within s { s with pins := p } :=
  ⟨⟨.refl _, fun _ => .refl _, id, id, rfl, id, rfl, rfl, rfl, rfl, id, id, id, id, id⟩, rfl, id⟩

/-- Publishing and the LIU change within their bounds, and the own sequence stays. -/
theorem Within.setLine {p : Pub} {l : Liu} {s : State} (hsequence : p.ownSequence = s.pub.ownSequence)
    (h : publishingOk s → publishingOk { s with pub := p, liu := l }) : Within s { s with pub := p, liu := l } :=
  ⟨⟨.refl _, fun _ => .refl _, id, h, hsequence, id, rfl, rfl, rfl, rfl, id, id, id, id, id⟩, rfl, id⟩

theorem Within.setPub {p : Pub} {s : State} (hsequence : p.ownSequence = s.pub.ownSequence)
    (h : publishingOk s → publishingOk { s with pub := p }) : Within s { s with pub := p } :=
  .setLine (l := s.liu) hsequence h

theorem Within.setDue {d : Due} {s : State} (hftu : d.ftuBoundary = true → s.due.ftuBoundary = true)
    (hliu : d.liuBoundary = true → s.due.liuBoundary = true) (hmid : d.midEpoch = true → s.due.midEpoch = true)
    (hreleasing : s.due.releasing = [] → d.releasing = []) (hmoments : s.due.moments = [] → d.moments = []) :
    Within s { s with due := d } :=
  ⟨⟨.refl _, fun _ => .refl _, id, id, rfl, id, rfl, rfl, rfl, rfl, hftu, hliu, hmid, hreleasing, hmoments⟩, rfl, id⟩

/-- The FTU's items change: the station stays joined, and a pending MARK request stays allowed (R22). -/
theorem Works.setFtu {f : Ftu → Ftu} {s : State}
    (hjoined : joined s = true → joined (setFtu f s) = true)
    (hlocked : s.pub.markSlot ≠ none → lockedOn s = true → lockedOn (setFtu f s) = true) : Works s (setFtu f s) := by
  refine ⟨.refl _, fun _ => .refl _, id, fun ⟨hqueue, ⟨hmark, hmute, hleft, htx⟩, hfaults⟩ => ?_, rfl, hjoined, rfl, rfl,
    rfl, rfl, id, id, id, id, id⟩
  refine ⟨hqueue, ⟨fun hm => ⟨hlocked hm (hmark hm).1, (hmark hm).2⟩, fun hm => ?_, hleft, fun h => hjoined (htx h)⟩, hfaults⟩
  obtain ⟨hroll, hlow, hhigh, hj, ht⟩ := hmute hm
  exact ⟨hroll, hlow, hhigh, hjoined hj, ht⟩

end Sys2Proof.Machine
end

section
/-! What the actions, the tap instants and the samples make of one channel (R97, R99 to R109, R111, R118 to R146). -/

namespace Sys2Proof.Machine

-- Proofs elaborated side by side need more threads than the memory limit of the check holds.
set_option Elab.async false

/-! ### The channel's invariant, read by its state -/

theorem channelOk.suits {ch : Channel} (h : channelOk ch) : stateSuits ch.cfg.mode ch.state = true := h.1

theorem channelOk.held_eq_none {ch : Channel} (h : channelOk ch) (hs : ch.state ≠ .starting) : ch.held = none := by
  obtain ⟨_, _, hheld, _⟩ := h
  exact Decidable.byContradiction fun hne => hs (hheld hne).1

/-- R130: outside PHASE_A and PHASE_B nothing is staged. -/
theorem channelOk.unstaged {ch : Channel} (h : channelOk ch) (hA : ch.state ≠ .phaseA) (hB : ch.state ≠ .phaseB) :
    ch.stagedA = none ∧ ch.stagedB = none ∧ ch.pairReady = false := by
  obtain ⟨_, _, _, hstaged⟩ := h
  have hnone : ¬ (ch.stagedA ≠ none ∨ ch.stagedB ≠ none ∨ ch.pairReady = true) := fun hs => by
    rcases hstaged hs with h | h
    · exact hA h
    · exact hB h
  simpa using hnone

/-- R97: a state in which nothing may be held or staged needs its mode and its output level alone. -/
theorem channelOk_of_bare {ch : Channel} (hsuits : stateSuits ch.cfg.mode ch.state = true)
    (hout : outputSuits ch = true) (hheld : ch.held = none)
    (hstaged : ch.stagedA = none ∧ ch.stagedB = none ∧ ch.pairReady = false) : channelOk ch :=
  ⟨hsuits, hout, fun h => absurd hheld h, fun h => by simp [hstaged] at h⟩

theorem stateSuits_starting {m : Mode} (h : stateSuits m .idle = true) : stateSuits m .starting = true := by
  cases m <;> exact h

theorem stateSuits_idle {m : Mode} {x : ChannelState} (hx : x ≠ .disabled) (h : stateSuits m x = true) :
    stateSuits m .idle = true := by
  cases m with
  | unused => cases x <;> simp_all [stateSuits]
  | oneShot | delayed | repeating | paired | captureFree | captureClear | qualify => rfl

theorem mode_of_lead {m : Mode} (h : stateSuits m .lead = true) : m = .delayed := by
  cases m <;> simp_all [stateSuits]

theorem mode_of_phase {m : Mode} {x : ChannelState} (hx : x = .phaseA ∨ x = .phaseB) (h : stateSuits m x = true) :
    m = .paired := by
  rcases hx with rfl | rfl <;> cases m <;> simp_all [stateSuits]

theorem mode_of_qualifies {m : Mode} {x : ChannelState} (hx : x = .watching ∨ x = .qualifying ∨ x = .held)
    (h : stateSuits m x = true) : m = .qualify := by
  rcases hx with rfl | rfl | rfl <;> cases m <;> simp_all [stateSuits]

theorem phase_of_pairedRunning {x : ChannelState} (hx : isRunning x = true) (h : stateSuits .paired x = true) :
    x = .phaseA ∨ x = .phaseB := by
  cases x <;> simp_all [stateSuits, isRunning]

/-! ### The actions -/

/-- An update of counters, measures and working values leaves the channel's invariant as it was. -/
theorem ChannelMove.of_registers {ch ch' : Channel} (h : ch' = { ch with
    counter := ch'.counter, workA := ch'.workA, workB := ch'.workB, measureValue := ch'.measureValue,
    measureTime := ch'.measureTime, wrap := ch'.wrap, runStart := ch'.runStart }) : ChannelMove ch ch' := by
  rw [h]
  exact ⟨rfl, id, id, fun h => ⟨h, rfl⟩⟩

theorem ChannelMove.armed {ch : Channel} (h : ch.state = .idle) : ChannelMove ch (armed ch) := by
  refine ⟨rfl, fun hok => ?_, by simp [Machine.armed], fun h => ⟨h, rfl⟩⟩
  have hsuits := hok.suits
  have hout := hok.2.1
  rw [h] at hsuits
  refine channelOk_of_bare (stateSuits_starting hsuits) ?_ (hok.held_eq_none (by simp [h]))
    (hok.unstaged (by simp [h]) (by simp [h]))
  simpa [outputSuits, h, Machine.armed] using hout

theorem ChannelMove.halted {ch : Channel} (h : ch.state ≠ .disabled) : ChannelMove ch (halted ch) :=
  ⟨rfl, fun hok => channelOk_of_bare (stateSuits_idle h hok.suits) rfl rfl ⟨rfl, rfl, rfl⟩, id, fun h => ⟨h, rfl⟩⟩

theorem ChannelMove.holdCorrection (v : Int) {ch : Channel} (h : ch.state = .starting)
    (hmode : ch.cfg.mode = .oneShot ∨ ch.cfg.mode = .delayed) : ChannelMove ch (holdCorrection v ch) :=
  ⟨rfl, fun ⟨hsuits, hout, _, hstaged⟩ => ⟨hsuits, hout, fun _ => ⟨h, hmode⟩, hstaged⟩, id, fun h => ⟨h, rfl⟩⟩

/-- R130: values are staged only in a running PAIRED channel, and that is in PHASE_A or PHASE_B. -/
theorem ChannelMove.staged {ch : Channel} (a b : Option Half) (ready : Bool)
    (h : ch.cfg.mode = .paired ∧ isRunning ch.state = true) :
    ChannelMove ch { ch with stagedA := a, stagedB := b, pairReady := ready } :=
  ⟨rfl, fun ⟨hsuits, hout, hheld, _⟩ =>
    ⟨hsuits, hout, hheld, fun _ => phase_of_pairedRunning h.2 (by simpa [h.1] using hsuits)⟩, id, fun h => ⟨h, rfl⟩⟩

theorem ChannelMove.loadedA (v : Half) (ch : Channel) : ChannelMove ch (loadedA v ch) := by
  unfold Machine.loadedA
  split
  · next h => exact .staged (some v) ch.stagedB true h
  · exact .of_registers rfl

theorem ChannelMove.loadedB (v : Half) (ch : Channel) : ChannelMove ch (loadedB v ch) := by
  unfold Machine.loadedB
  split
  · next h => exact .staged ch.stagedA (some v) ch.pairReady h
  · exact .of_registers rfl

theorem Within.takeArm (a : PendingAction) (s : State) : Within s (takeArm a s) := by
  unfold Machine.takeArm
  dsimp only
  split
  · next h => exact .setChannel (.armed h)
  · split
    · exact .setChannel (.of_registers rfl)
    · exact .writeRecord ..
  · exact .refl s
  all_goals exact .writeRecord ..

theorem Within.takeHalt (a : PendingAction) (s : State) : Within s (takeHalt a s) := by
  unfold Machine.takeHalt
  dsimp only
  split
  · exact .refl s
  · next h => exact .setChannel (.halted fun hd => h (.inr hd))

theorem Within.takeSnap (a : PendingAction) (s : State) : Within s (takeSnap a s) := by
  unfold Machine.takeSnap
  dsimp only
  split
  · exact (Within.setChannel (.of_registers rfl)).trans (.writeRecord ..)
  · exact .setChannel (.of_registers rfl)

theorem Within.correctRunning (a : PendingAction) (v : Int) (s : State) : Within s (correctRunning a v s) := by
  unfold Machine.correctRunning
  dsimp only
  split
  · exact (Within.setChannel (.of_registers rfl)).trans (.writeRecord ..)
  · exact .setChannel (.of_registers rfl)

/-- R65, R108: CORRECT is held only in a mode that takes it. -/
theorem Within.takeCorrect (a : PendingAction) (v : Int) (s : State)
    (hmode : (channelOf s a.channel).cfg.mode = .oneShot ∨ (channelOf s a.channel).cfg.mode = .delayed) :
    Within s (takeCorrect a v s) := by
  unfold Machine.takeCorrect
  dsimp only
  split
  · exact .writeRecord ..
  · next h => exact .setChannel (.holdCorrection v h hmode)
  · exact .correctRunning a v s
  · exact .correctRunning a v s
  all_goals exact .refl s

theorem mode_of_correctAllowed {m : Mode} (h : actionAllowed m .correct = true) : m = .oneShot ∨ m = .delayed := by
  cases m <;> simp_all [actionAllowed]

theorem Within.applyAction (a : PendingAction) (s : State) : Within s (applyAction a s) := by
  unfold Machine.applyAction
  dsimp only
  split
  · next hallowed =>
    split
    · exact .takeArm a s
    · exact .takeHalt a s
    · exact .takeSnap a s
    · next h => exact .takeCorrect a _ s (mode_of_correctAllowed (by rwa [h] at hallowed))
    · exact .setChannel (.loadedA ..)
    · exact .setChannel (.loadedB ..)
  · exact .refl s

theorem Within.applyAll (as : List PendingAction) (s : State) : Within s (applyAll as s) := by
  induction as generalizing s with
  | nil => exact .refl s
  | cons a as ih => exact (Within.applyAction a s).trans (ih _)

/-! ### Counting (R99) -/

theorem ChannelMove.tapTaken (ch : Channel) : ChannelMove ch (tapTaken ch) :=
  ⟨rfl, id, fun h => by simp [Machine.tapTaken] at h, fun h => ⟨h, rfl⟩⟩

theorem ChannelMove.plainCount (ch : Channel) : ChannelMove ch (plainCount ch) := by
  unfold Machine.plainCount
  split
  · exact .of_registers rfl
  · split
    · exact .of_registers rfl
    · exact .refl ch

/-! ### Starts (R102) -/

/-- R102: a start enters the first running state of the mode at its output level, with nothing held. -/
theorem ChannelMove.start (t : Time) {ch : Channel} (h : ch.state = .starting) :
    ChannelMove ch (enterRunning t (Machine.tapTaken (startCounter ch))) := by
  have hcfg : (enterRunning t (Machine.tapTaken (startCounter ch))).cfg = ch.cfg := by
    unfold enterRunning startCounter startLoad beginRun Machine.tapTaken
    split <;> repeat' split
    all_goals rfl
  refine ⟨hcfg, fun hok => ?ok, ?tap, ?sample⟩
  case ok =>
    have hbare := hok.unstaged (by simp [h]) (by simp [h])
    obtain ⟨hsuits, hout, hheld, -⟩ := hok
    have hheld' : ch.cfg.mode ≠ .oneShot → ch.cfg.mode ≠ .delayed → ch.held = none := fun h1 h2 =>
      Decidable.byContradiction fun hne => (hheld hne).2.elim h1 h2
    have hlow : ch.output = false := by simpa [outputSuits, h] using hout
    cases hmode : ch.cfg.mode with
    | unused => simp [hmode, h, stateSuits] at hsuits
    | oneShot | delayed | repeating | paired =>
      refine channelOk_of_bare ?_ ?_ ?_ ?_ <;>
        simp [enterRunning, startCounter, startLoad, Machine.tapTaken, hmode, stateSuits, outputSuits, hbare]
    | captureFree | captureClear =>
      refine channelOk_of_bare ?_ ?_ ?_ ?_ <;>
        simp [enterRunning, startCounter, startLoad, isCaptureMode, Machine.tapTaken, hmode, stateSuits, outputSuits,
          hbare, hlow, hheld']
    | qualify =>
      by_cases hactive : ch.sampled.any (isActiveLevel ch.cfg) = true <;>
        refine channelOk_of_bare ?_ ?_ ?_ ?_ <;>
        simp [enterRunning, startCounter, startLoad, isCaptureMode, beginRun, Machine.tapTaken, hmode, stateSuits,
          outputSuits, hbare, hlow, hheld', hactive]
  case tap =>
    unfold enterRunning startCounter startLoad beginRun Machine.tapTaken
    split <;> repeat' split
    all_goals simp
  case sample =>
    unfold enterRunning startCounter startLoad beginRun Machine.tapTaken
    split <;> repeat' split
    all_goals exact fun h => ⟨h, rfl⟩

/-! ### Underflows -/

/-- A move to another running state, or to IDLE, of a channel that holds and stages nothing. -/
theorem ChannelMove.toState {ch : Channel} (n : Half) (x : ChannelState) (o : Bool)
    (hs : ch.state ≠ .starting) (hA : ch.state ≠ .phaseA) (hB : ch.state ≠ .phaseB)
    (h : stateSuits ch.cfg.mode ch.state = true → outputSuits ch = true →
      stateSuits ch.cfg.mode x = true ∧ outputSuits { ch with state := x, output := o } = true) :
    ChannelMove ch { Machine.tapTaken ch with counter := n, state := x, output := o } :=
  ⟨rfl, fun hok =>
    have hx := h hok.1 hok.2.1
    channelOk_of_bare hx.1 hx.2 (hok.held_eq_none hs) (hok.unstaged hA hB),
    fun h => by simp [Machine.tapTaken] at h, fun h => ⟨h, rfl⟩⟩

/-- R129, R131: a move between the phases, which may leave values staged. -/
theorem ChannelMove.toPhase {ch : Channel} (n : Half) (x : ChannelState) (o : Bool)
    (hphase : ch.state = .phaseA ∨ ch.state = .phaseB) (h : x = .phaseA ∧ o = true ∨ x = .phaseB ∧ o = false) :
    ChannelMove ch { Machine.tapTaken ch with counter := n, state := x, output := o } := by
  refine ⟨rfl, fun hok => ⟨?_, ?_, fun hheld => absurd (hok.held_eq_none ?_) hheld, fun _ => ?_⟩,
    fun h => by simp [Machine.tapTaken] at h, fun h => ⟨h, rfl⟩⟩
  · have hmode : ch.cfg.mode = .paired := mode_of_phase hphase hok.suits
    obtain ⟨rfl, rfl⟩ | ⟨rfl, rfl⟩ := h <;> simp [Machine.tapTaken, hmode, stateSuits]
  · obtain ⟨rfl, rfl⟩ | ⟨rfl, rfl⟩ := h <;> rfl
  · rcases hphase with h | h <;> simp [h]
  · obtain ⟨rfl, -⟩ | ⟨rfl, -⟩ := h
    · exact .inl rfl
    · exact .inr rfl

theorem ChannelMove.takePair (ch : Channel) : ChannelMove ch (takePair ch) := by
  unfold Machine.takePair
  split
  · exact ⟨rfl, fun ⟨hsuits, hout, hheld, _⟩ => ⟨hsuits, hout, hheld, fun h => by simp at h⟩, id, fun h => ⟨h, rfl⟩⟩
  · exact .refl ch

theorem takePair_state (ch : Channel) : (takePair ch).state = ch.state := by
  unfold takePair; split <;> rfl

/-! ### Samples (R111, R144) -/

theorem ChannelMove.recordSample (level : Bool) (ch : Channel) : ChannelMove ch (recordSample level ch) :=
  ⟨rfl, id, id, fun h => by simp [Machine.recordSample] at h⟩

theorem ChannelMove.latchEdge (t : Time) (ch : Channel) : ChannelMove ch (latchEdge t ch) := by
  unfold Machine.latchEdge
  dsimp only
  split <;> exact .of_registers rfl

/-- R144: between WATCHING, QUALIFYING and HELD a QUALIFY channel holds and stages nothing and its output is idle. -/
theorem ChannelMove.betweenQualifying {ch ch' : Channel}
    (hold : ch.state = .watching ∨ ch.state = .qualifying ∨ ch.state = .held)
    (hnew : ch'.state = .watching ∨ ch'.state = .qualifying ∨ ch'.state = .held)
    (h : ch' = { ch with state := ch'.state, counter := ch'.counter, runStart := ch'.runStart }) : ChannelMove ch ch' := by
  rw [h]
  refine ⟨rfl, fun hok => channelOk_of_bare ?_ ?_ (hok.held_eq_none ?_) (hok.unstaged ?_ ?_), id, fun h => ⟨h, rfl⟩⟩
  · have hmode : ch.cfg.mode = .qualify := mode_of_qualifies hold hok.suits
    rcases hnew with h | h | h <;> simp [h, hmode, stateSuits]
  · have hout := hok.2.1
    rcases hold with h | h | h <;> rcases hnew with h' | h' | h' <;> simpa [outputSuits, h, h'] using hout
  all_goals rcases hold with h | h | h <;> simp [h]

theorem ChannelMove.followLevel (t : Time) (level : Bool) (ch : Channel) : ChannelMove ch (followLevel t level ch) := by
  unfold Machine.followLevel
  split
  · next h =>
    split
    · exact .betweenQualifying (.inl h) (.inr (.inl rfl)) rfl
    · exact .refl ch
  · next h =>
    split
    · exact .refl ch
    · exact .betweenQualifying (.inr (.inl h)) (.inl rfl) rfl
  · next h =>
    split
    · exact .refl ch
    · exact .betweenQualifying (.inr (.inr h)) (.inl rfl) rfl
  all_goals exact .refl ch

end Sys2Proof.Machine
end

section
/-! Walks, occurrences, channel events and the release: what they keep (R66 to R84, R112, R150 to R152). -/

namespace Sys2Proof.Machine

-- Proofs elaborated side by side need more threads than the memory limit of the check holds.
set_option Elab.async false

/-! ### Placement (R77, R78) -/

theorem mem_insertAction {t : Time} {a b : PendingAction} {l : List PendingAction} :
    b ∈ insertAction t a l ↔ b = a ∨ b ∈ l := by
  induction l with
  | nil => simp [insertAction]
  | cons x xs ih =>
    unfold insertAction
    split
    · rw [List.mem_cons, ih, List.mem_cons]; exact or_left_comm
    · simp

theorem length_insertAction (t : Time) (a : PendingAction) (l : List PendingAction) :
    (insertAction t a l).length = l.length + 1 := by
  induction l with
  | nil => rfl
  | cons x xs ih => unfold insertAction; split <;> simp [ih]

/-- R78: insertion keeps the order of distance. -/
theorem pairwise_insertAction (t : Time) (a : PendingAction) {l : List PendingAction}
    (hl : l.Pairwise fun x y => distance t x ≤ distance t y) :
    (insertAction t a l).Pairwise fun x y => distance t x ≤ distance t y := by
  obtain ⟨front, back, hsplit, hinsert, hfront, hback⟩ := insertAction_parts t a l hl
  rw [hsplit, List.pairwise_append] at hl
  obtain ⟨hf, hb, hcross⟩ := hl
  rw [hinsert, List.pairwise_append, List.pairwise_cons]
  refine ⟨hf, ⟨fun x hx => Nat.le_of_lt (hback x hx), hb⟩, fun x hx y hy => ?_⟩
  rcases List.mem_cons.1 hy with rfl | hy
  · exact hfront x hx
  · exact hcross x hx y hy

/-- R73: an action ahead of T joins a list with room, and the list keeps its bounds. -/
theorem scheduleOk_insert {a : PendingAction} {l : List PendingAction} {s : State}
    (hahead : lateness a.due s.ftu.time < 0) (hroom : l.length < Config.scheduleCapacity)
    (hl : scheduleOk { s with schedule := l }) :
    scheduleOk { s with schedule := insertAction s.ftu.time a l } := by
  obtain ⟨_, hmem, hsorted⟩ := hl
  obtain ⟨hpos, hhalf⟩ := (lateness_neg_iff a.due s.ftu.time).1 hahead
  refine ⟨?_, fun b hb => ?_, pairwise_insertAction _ _ hsorted⟩
  · show (insertAction s.ftu.time a l).length ≤ _
    rw [length_insertAction]
    exact hroom
  · rcases mem_insertAction.1 hb with rfl | hb
    · exact ⟨hpos, show (b.due - s.ftu.time).toNat < 2 ^ 31 by omega⟩
    · exact hmem b hb

theorem scheduleOk_sublist {l : List PendingAction} {s : State} (hsub : l.Sublist s.schedule) (h : scheduleOk s) :
    scheduleOk { s with schedule := l } :=
  ⟨Nat.le_trans hsub.length_le h.1, fun b hb => h.2.1 b (hsub.subset hb), h.2.2.sublist hsub⟩

theorem Within.displaceOrRefuse {a : PendingAction} {s : State} (hahead : lateness a.due s.ftu.time < 0) :
    Within s (displaceOrRefuse a s) := by
  unfold Machine.displaceOrRefuse
  split
  · exact .refl s
  · next last hlast =>
    split
    · refine Within.trans (.setSchedule fun h => ?_) (.writeRecord ..)
      refine scheduleOk_insert hahead ?_ (scheduleOk_sublist (List.dropLast_sublist _) h)
      have hne : s.schedule ≠ [] := fun he => by simp [he] at hlast
      have hpos := List.length_pos_iff.2 hne
      have hle := h.1
      rw [List.length_dropLast]
      omega
    · exact .writeRecord ..

theorem Within.placeAction (a : PendingAction) (s : State) : Within s (placeAction a s) := by
  unfold Machine.placeAction
  dsimp only
  split
  · next hahead =>
    split
    · next hroom => exact .setSchedule fun h => scheduleOk_insert hahead hroom h
    · exact .displaceOrRefuse hahead
  · split
    · exact .applyAction a s
    · split
      · exact (Within.writeRecord ..).trans (.applyAction ..)
      · exact .writeRecord ..

/-! ### Walks (R66) -/

theorem Within.walkEntry (n : Notice) (i : Nat) (e : TrigEntry) (s : State) : Within s (walkEntry n i e s) := by
  unfold Machine.walkEntry
  split
  · split
    · exact .writeRecord ..
    · dsimp only
      split
      · exact (Within.writeRecord ..).trans (.placeAction ..)
      · exact .placeAction ..
  · exact .refl s

theorem Within.walkFrom (n : Notice) (i : Nat) (es : List TrigEntry) (s : State) : Within s (walkFrom n i es s) := by
  induction es generalizing i s with
  | nil => exact .refl s
  | cons e es ih => exact (Within.walkEntry n i e s).trans (ih _ _)

theorem Within.walkNotice (n : Notice) (s : State) : Within s (walkNotice n s) := .walkFrom ..

theorem Within.releaseOver (s : State) : Within s (releaseOver s) := .setDue id id id (fun _ => rfl) fun _ => rfl

theorem Within.releaseDue (s : State) : Within s (releaseDue s) := (Within.releaseOver s).trans (.applyAll ..)

theorem Within.walkArrival (n : Notice) (s : State) : Within s (walkArrival n s) :=
  (Within.releaseDue s).trans (.walkNotice ..)

/-! ### The arbiter and the publish queue (R152, R157) -/

/-- The offer and the attempt on the line bear on no bound of Publishing. -/
theorem Within.setOffer (o : Option Offer) (s : State) : Within s { s with liu := { s.liu with offer := o } } :=
  .setLine rfl id

theorem Within.askArbiter (s : State) : Within s (askArbiter s) := by
  rw [askArbiter_frame]; exact .setOffer ..

theorem Within.orphanAttempt (item : TxItem) (s : State) : Within s (orphanAttempt item s) := .setLine rfl id

/-- R152: a fresh event joins a publish queue with room. -/
theorem publishingOk_append {e : QueueEntry} {s : State} (hroom : s.pub.queue.length < Config.queueCapacity)
    (hcopies : e.copiesSent = 0) (hfaults : e.faults = 0) (h : publishingOk s) :
    publishingOk { s with pub := { s.pub with queue := s.pub.queue ++ [e] } } := by
  obtain ⟨⟨_, hlow, hhigh, hsent⟩, hmute, hmark, hroll, hqueue⟩ := h
  refine ⟨⟨by rw [List.length_append]; exact hroom, hlow, hhigh, fun x hx => ?_⟩, hmute, hmark, hroll, fun x hx => ?_⟩
  · rcases List.mem_append.1 hx with hx | hx
    · exact hsent x hx
    · obtain rfl := List.mem_singleton.1 hx
      rw [hcopies]; exact hlow
  · rcases List.mem_append.1 hx with hx | hx
    · exact hqueue x hx
    · obtain rfl := List.mem_singleton.1 hx
      rw [hfaults]; exact ⟨by decide, fun h => absurd h (by decide)⟩

theorem Within.appendEvent (source : Option ChannelId) (tag : Tag) (occurrence : Time) (value : Option Half)
    (s : State) : Within s (appendEvent source tag occurrence value s) := by
  unfold Machine.appendEvent
  split
  · next hroom =>
    refine Within.trans ?_ (.askArbiter _)
    exact .setPub rfl (publishingOk_append hroom rfl rfl)
  · exact .writeRecord ..

theorem Within.publishLocal (source : Option ChannelId) (tag : Tag) (occurrence : Time) (value : Option Half)
    (forLine : Bool) (s : State) : Within s (publishLocal source tag occurrence value forLine s) := by
  unfold Machine.publishLocal
  dsimp only
  split
  · exact (Within.walkNotice ..).trans (.appendEvent ..)
  · exact .walkNotice ..

theorem Within.publishOccurrence (o : Occurrence) (s : State) : Within s (publishOccurrence o s) := .publishLocal ..

theorem Within.publishEvent {s : State} {x : State × Option Occurrence} (h : Within s x.1) :
    Within s (publishEvent x) := by
  unfold Machine.publishEvent
  split
  · exact h
  · exact h.trans (.publishOccurrence ..)

theorem Within.occur (c : ChannelId) (flag : Bool) (r : Record) (tag : Option Tag) (time : Time) (value : Option Half)
    (s : State) : Within s (occur c flag r tag time value s).1 := by
  unfold Machine.occur
  dsimp only
  split
  · exact .writeRecord ..
  · exact .refl s

/-! ### Tap instants (R99, R102, R118 to R131, R145) -/

theorem Within.startChannel {c : ChannelId} {s : State} (h : (channelOf s c).state = .starting) :
    Within s (startChannel c s).1 := by
  unfold Machine.startChannel
  dsimp only
  refine Within.trans ?_ (.occur ..)
  have hset : Within s (Machine.setChannel c (enterRunning s.ftu.time (tapTaken (startCounter (channelOf s c)))) s) :=
    .setChannel (.start _ h)
  split
  · split
    · exact hset.trans (.writeRecord ..)
    · exact hset
  · exact hset

/-- R118, R122: from ACTIVE to IDLE. -/
theorem Within.pulseUnderflow {c : ChannelId} {s : State} (h : (channelOf s c).state = .active) :
    Within s (pulseUnderflow c s).1 :=
  (Within.setChannel (.toState (channelOf s c).counter .idle false (by simp [h]) (by simp [h]) (by simp [h])
    fun hsuits _ => ⟨stateSuits_idle (by simp [h]) hsuits, rfl⟩)).trans (.occur ..)

theorem Within.leadUnderflowOf {c : ChannelId} {s : State} (h : (channelOf s c).state = .lead) :
    Within s (leadUnderflowOf c s).1 :=
  .setChannel (.toState _ .active true (by simp [h]) (by simp [h]) (by simp [h]) fun hsuits _ => by
    rw [h] at hsuits
    exact ⟨by rw [mode_of_lead hsuits]; rfl, rfl⟩)

theorem Within.repeatUnderflowOf {c : ChannelId} {s : State} (h : (channelOf s c).state = .running) :
    Within s (repeatUnderflowOf c s).1 := by
  have hset : Within s (Machine.setChannel c { tapTaken (channelOf s c) with
      counter := (channelOf s c).workA, state := (channelOf s c).state, output := !(channelOf s c).output } s) :=
    .setChannel (.toState _ _ _ (by simp [h]) (by simp [h]) (by simp [h]) fun hsuits _ =>
      ⟨hsuits, by simp [outputSuits, h]⟩)
  unfold Machine.repeatUnderflowOf
  dsimp only
  split
  · exact hset.trans (.occur ..)
  · exact hset

theorem Within.phaseAUnderflowOf {c : ChannelId} {s : State} (h : (channelOf s c).state = .phaseA) :
    Within s (phaseAUnderflowOf c s).1 :=
  .setChannel (.toPhase _ .phaseB false (.inl h) (.inr ⟨rfl, rfl⟩))

theorem tapTaken_eq_self {ch : Channel} (h : ch.tapDue = false) : tapTaken ch = ch := by
  cases ch; simp_all [tapTaken]

theorem takePair_tapDue (ch : Channel) : (takePair ch).tapDue = ch.tapDue := by
  unfold takePair; split <;> rfl

theorem Within.periodBoundaryOf {c : ChannelId} {s : State} (h : (channelOf s c).state = .phaseB) :
    Within s (periodBoundaryOf c s).1 := by
  have hphase : (takePair (tapTaken (channelOf s c))).state = .phaseB := by rw [takePair_state]; exact h
  have hmove := (ChannelMove.tapTaken (channelOf s c)).trans (ChannelMove.takePair _)
  have hdue : (takePair (tapTaken (channelOf s c))).tapDue = false := takePair_tapDue _
  refine Within.trans (.setChannel (hmove.trans ?_)) (.occur ..)
  have := ChannelMove.toPhase (ch := takePair (tapTaken (channelOf s c))) (takePair (tapTaken (channelOf s c))).workA
    .phaseA true (.inr hphase) (.inl ⟨rfl, rfl⟩)
  rwa [tapTaken_eq_self hdue] at this

theorem Within.qualifiedOf {c : ChannelId} {s : State} (h : (channelOf s c).state = .qualifying) :
    Within s (qualifiedOf c s).1 :=
  (Within.setChannel (.toState (channelOf s c).counter .held (channelOf s c).output (by simp [h]) (by simp [h])
    (by simp [h]) fun hsuits hout => by
      rw [h] at hsuits
      exact ⟨by rw [mode_of_qualifies (.inr (.inl rfl)) hsuits]; rfl, by simpa [outputSuits, h] using hout⟩)).trans
    (.occur ..)

theorem Within.tapEvent (c : ChannelId) (s : State) : Within s (tapEvent c s).1 := by
  unfold Machine.tapEvent
  dsimp only
  split
  · exact .refl s
  split
  · next h => exact .startChannel h
  split
  · split
    · next h => exact .pulseUnderflow h
    · next h => exact .leadUnderflowOf h
    · next h => exact .repeatUnderflowOf h
    · next h => exact .phaseAUnderflowOf h
    · next h => exact .periodBoundaryOf h
    · next h => exact .qualifiedOf h
    all_goals exact .setChannel (.tapTaken _)
  · exact .setChannel ((ChannelMove.tapTaken _).trans (.plainCount _))

/-! ### Samples (R111, R136, R144) -/

theorem Within.captureEdge (c : ChannelId) (s : State) : Within s (captureEdge c s).1 :=
  (Within.setChannel (.latchEdge ..)).trans (.occur ..)

theorem Within.takeSample (c : ChannelId) (level : Bool) (s : State) : Within s (takeSample c level s).1 := by
  have hset : Within s (Machine.setChannel c (recordSample level (channelOf s c)) s) := .setChannel (.recordSample ..)
  unfold Machine.takeSample
  dsimp only
  split
  · exact .setChannel ((ChannelMove.recordSample ..).trans (.followLevel ..))
  · split
    · exact hset.trans (.captureEdge ..)
    · exact hset
  · split
    · exact hset.trans (.captureEdge ..)
    · exact hset
  all_goals exact .refl s

theorem Within.sampleEvent (c : ChannelId) (s : State) : Within s (sampleEvent c s).1 := by
  unfold Machine.sampleEvent
  split
  · exact .takeSample ..
  · exact .refl s

theorem Within.pinEvent (c : ChannelId) (level : Bool) (s : State) : Within s (pinEvent c level s).1 := by
  unfold Machine.pinEvent
  split
  · exact (Within.setPins ..).trans (.sampleEvent ..)
  · exact .setPins ..

/-! ### The rows of the channels, and the release (R84, R89, R134) -/

theorem Within.takeTap (c : ChannelId) (s : State) : Within s (takeTap c s) := .publishEvent (.tapEvent c s)

theorem Within.takeSampleDue (c : ChannelId) (s : State) : Within s (takeSampleDue c s) :=
  .publishEvent (.sampleEvent c s)

theorem Within.settleChannel (c : ChannelId) (s : State) : Within s (settleChannel s c) :=
  (Within.takeTap c s).trans (.takeSampleDue ..)

theorem Within.settleChannels (cs : List ChannelId) (s : State) : Within s (cs.foldl Machine.settleChannel s) := by
  induction cs generalizing s with
  | nil => exact .refl s
  | cons c cs ih => exact (Within.settleChannel c s).trans (ih _)

theorem Within.takeEventOf (c : ChannelId) {event : State → State × Option Occurrence}
    (h : ∀ s, Within s (event s).1) (s : State) : Within s (takeEventOf c event s) := by
  obtain e | e | ⟨o, -, e⟩ := takeEventOf_cases c event s <;> rw [e]
  · exact .publishEvent (h s)
  · exact (Within.releaseDue s).trans (.publishEvent (h _))
  · exact ((h s).trans (.releaseDue _)).trans (.publishOccurrence ..)

theorem Within.tapEventIn (c : ChannelId) (mode : Mode) (state : ChannelState) (s : State) :
    Within s (tapEventIn c mode state s).1 := by
  unfold Machine.tapEventIn
  split
  · exact .tapEvent c s
  · exact .refl s

theorem Within.startEvent (c : ChannelId) (s : State) : Within s (startEvent c s).1 := by
  unfold Machine.startEvent
  split
  · exact .tapEvent c s
  · exact .refl s

theorem Within.momentEvent (m : ChannelMoment) (s : State) : Within s (momentEvent m s).1 := by
  cases m with
  | tap c => exact .tapEvent c s
  | pin c level => exact .pinEvent c level s

theorem Within.takeMoment (left : List PendingAction) (p : State × List Occurrence) (m : ChannelMoment) :
    Within p.1 (takeMoment left p m).1 := by
  unfold Machine.takeMoment
  dsimp only
  split
  · cases m with
    | tap c => exact .refl _
    | pin c level => exact .setPins ..
  · split
    · exact .momentEvent m p.1
    · split
      · exact .momentEvent m p.1
      · exact (Within.momentEvent m p.1).trans (.publishOccurrence ..)

theorem Within.takeMoments (left : List PendingAction) (ms : List ChannelMoment) (p : State × List Occurrence) :
    Within p.1 (ms.foldl (Machine.takeMoment left) p).1 := by
  induction ms generalizing p with
  | nil => exact .refl _
  | cons m ms ih => exact (Within.takeMoment left p m).trans (ih _)

theorem Within.releaseFrom (as : List PendingAction) (moments : List (List ChannelMoment))
    (p : State × List Occurrence) : Within p.1 (releaseFrom as moments p).1 := by
  induction as generalizing moments p with
  | nil => exact .refl _
  | cons a as ih => exact (Within.takeMoments ..).trans ((Within.applyAction ..).trans (ih _ (_, _)))

theorem Within.publishWaiting (p : State × List Occurrence) : Within p.1 (publishWaiting p) := by
  obtain ⟨s, os⟩ := p
  unfold Machine.publishWaiting
  induction os generalizing s with
  | nil => exact .refl _
  | cons o os ih => exact (Within.publishOccurrence o s).trans (ih _)

theorem Within.releaseAmong (s : State) : Within s (releaseAmong s) :=
  (Within.releaseOver s).trans ((Within.releaseFrom _ _ (_, [])).trans (.publishWaiting _))

end Sys2Proof.Machine
end

section
/-! The roster, the slots, mute, boundaries and mid-epoch instants: what they keep (R20 to R23, R37, R44 to R50, R156). -/

namespace Sys2Proof.Machine

-- Proofs elaborated side by side need more threads than the memory limit of the check holds.
set_option Elab.async false

/-! ### The roster (R44, R46 to R49) -/

/-- R44: in an ascending roster without the origin, the new entry parts the lower origins from the higher ones. -/
theorem insertEntry_parts (e : RosterEntry) (l : List RosterEntry) (hne : ∀ x ∈ l, x.origin ≠ e.origin)
    (hl : l.Pairwise fun a b => a.origin.toNat < b.origin.toNat) :
    ∃ front back, l = front ++ back ∧ insertEntry e l = front ++ e :: back ∧
      (∀ x ∈ front, x.origin.toNat < e.origin.toNat) ∧ ∀ x ∈ back, e.origin.toNat < x.origin.toNat := by
  induction l with
  | nil => exact ⟨[], [], rfl, rfl, by simp, by simp⟩
  | cons x xs ih =>
    obtain ⟨hx, hxs⟩ := List.pairwise_cons.1 hl
    by_cases hlt : e.origin.toNat < x.origin.toNat
    · refine ⟨[], x :: xs, rfl, by rw [insertEntry, if_pos hlt, List.nil_append], by simp, ?_⟩
      exact List.forall_mem_cons.2 ⟨hlt, fun y hy => Nat.lt_trans hlt (hx y hy)⟩
    · obtain ⟨front, back, hsplit, hinsert, hfront, hback⟩ := ih (fun y hy => hne y (List.mem_cons_of_mem _ hy)) hxs
      refine ⟨x :: front, back, by rw [hsplit, List.cons_append], ?_, ?_, hback⟩
      · rw [insertEntry, if_neg hlt, hinsert, List.cons_append]
      · have hneq : x.origin.toNat ≠ e.origin.toNat := fun h => hne x List.mem_cons_self (BitVec.eq_of_toNat_eq h)
        exact List.forall_mem_cons.2 ⟨by omega, hfront⟩

theorem rosterEntry_isSome_iff {s : State} {origin : StationId} :
    (rosterEntry s origin).isSome = true ↔ ∃ e ∈ s.roster, e.origin = origin := by
  simp [rosterEntry]

/-- Entries changed in place keep the order of their origins. -/
theorem rosterOk_map {f : RosterEntry → RosterEntry} {s : State} (hf : ∀ e, (f e).origin = e.origin) (h : rosterOk s) :
    rosterOk { s with roster := s.roster.map f } := by
  obtain ⟨hlength, hsorted, hmem⟩ := h
  refine ⟨by simpa using hlength, ?_, fun e he => ?_⟩
  · simpa [List.pairwise_map, hf] using hsorted
  · obtain ⟨x, hx, rfl⟩ := List.mem_map.1 he
    rw [hf]; exact hmem x hx

theorem rosterOk_sublist {l : List RosterEntry} {s : State} (hsub : l.Sublist s.roster) (h : rosterOk s) :
    rosterOk { s with roster := l } :=
  ⟨Nat.le_trans hsub.length_le h.1, h.2.1.sublist hsub, fun e he => h.2.2 e (hsub.subset he)⟩

/-- R44, R47: a peer without an entry joins a roster with room. -/
theorem rosterOk_insert {e : RosterEntry} {s : State} (hvalid : validOrigin e.origin = true)
    (hid : e.origin ≠ s.params.id) (hnone : ∀ x ∈ s.roster, x.origin ≠ e.origin)
    (hroom : s.roster.length < Config.rosterCapacity) (h : rosterOk s) :
    rosterOk { s with roster := insertEntry e s.roster } := by
  obtain ⟨_, hsorted, hmem⟩ := h
  obtain ⟨front, back, hsplit, hinsert, hfront, hback⟩ := insertEntry_parts e s.roster hnone hsorted
  rw [hsplit] at hsorted hmem hroom
  rw [List.pairwise_append] at hsorted
  obtain ⟨hf, hb, hcross⟩ := hsorted
  refine ⟨?_, ?_, ?_⟩
  · simp only [hinsert, List.length_append, List.length_cons] at hroom ⊢
    omega
  · simp only [hinsert]
    rw [List.pairwise_append, List.pairwise_cons]
    refine ⟨hf, ⟨hback, hb⟩, fun x hx y hy => ?_⟩
    rcases List.mem_cons.1 hy with rfl | hy
    · exact hfront x hx
    · exact hcross x hx y hy
  · simp only [hinsert]
    intro x hx
    rcases List.mem_append.1 hx with hx | hx
    · exact hmem x (List.mem_append_left _ hx)
    · rcases List.mem_cons.1 hx with rfl | hx
      · exact ⟨hvalid, hid⟩
      · exact hmem x (List.mem_append_right _ hx)

theorem Within.updateEntry {f : RosterEntry → RosterEntry} (origin : StationId) (s : State)
    (hf : ∀ e, (f e).origin = e.origin) : Within s (updateEntry origin f s) :=
  .setRoster <| rosterOk_map fun e => by split <;> simp [hf]

/-- R46, R47: upkeep for a peer's frame. -/
theorem Within.hearPeer {origin : StationId} {s : State} (hvalid : validOrigin origin = true)
    (hid : origin ≠ s.params.id) : Within s (hearPeer origin s) := by
  unfold Machine.hearPeer
  dsimp only
  split
  · exact .updateEntry _ _ fun _ => rfl
  · next hnone =>
    split
    · next hroom =>
      refine Within.trans (.setRoster (rosterOk_insert hvalid hid (fun x hx he => ?_) hroom)) (.writeRecord ..)
      exact hnone (rosterEntry_isSome_iff.2 ⟨x, hx, he⟩)
    · exact .refl s

/-! ### What the FTU, the LIU and the roster do at an instant leaves the schedule and the channels alone -/

/-- What a boundary, a mid-epoch instant or the listen end makes of the station. -/
structure Reaches (s t : State) : Prop extends Works s t where
  time : t.ftu.time = s.ftu.time
  listenEnd : t.ftu.listenEnd = s.ftu.listenEnd
  stall : t.ftu.stall = s.ftu.stall
  listening : t.ftu.station = .listening → s.ftu.station = .listening
  discord : t.ftu.station = .discord → s.ftu.station = .discord
  schedule : t.schedule = s.schedule
  channelsEq : t.channels = s.channels

theorem Reaches.refl (s : State) : Reaches s s := ⟨.refl s, rfl, rfl, rfl, id, id, rfl, rfl⟩

theorem Reaches.trans {s t u : State} (h : Reaches s t) (k : Reaches t u) : Reaches s u :=
  ⟨h.toWorks.trans k.toWorks, k.time.trans h.time, k.listenEnd.trans h.listenEnd, k.stall.trans h.stall,
    h.listening ∘ k.listening, h.discord ∘ k.discord, k.schedule.trans h.schedule, k.channelsEq.trans h.channelsEq⟩

theorem Within.reaches {s t : State} (h : Within s t) (hschedule : t.schedule = s.schedule)
    (hchannels : t.channels = s.channels) : Reaches s t :=
  ⟨h.toWorks, by rw [h.ftu], by rw [h.ftu], by rw [h.ftu], by rw [h.ftu]; exact id, by rw [h.ftu]; exact id, hschedule,
    hchannels⟩

theorem Reaches.writeRecord (r : Record) (s : State) : Reaches s (writeRecord r s) :=
  (Within.writeRecord r s).reaches (writeRecord_schedule r s) (writeRecord_channels r s)

theorem Reaches.askArbiter (s : State) : Reaches s (askArbiter s) :=
  (Within.askArbiter s).reaches (by rw [askArbiter_frame]) (by rw [askArbiter_frame])

theorem Reaches.setLine {p : Pub} {l : Liu} {s : State} (hsequence : p.ownSequence = s.pub.ownSequence)
    (h : publishingOk s → publishingOk { s with pub := p, liu := l }) : Reaches s { s with pub := p, liu := l } :=
  (Within.setLine hsequence h).reaches rfl rfl

theorem Reaches.setFtu {f : Ftu → Ftu} {s : State} (hworks : Works s (setFtu f s))
    (htime : (f s.ftu).time = s.ftu.time) (hlisten : (f s.ftu).listenEnd = s.ftu.listenEnd)
    (hstall : (f s.ftu).stall = s.ftu.stall) (hlistening : (f s.ftu).station = .listening → s.ftu.station = .listening)
    (hdiscord : (f s.ftu).station = .discord → s.ftu.station = .discord) : Reaches s (setFtu f s) :=
  ⟨hworks, htime, hlisten, hstall, hlistening, hdiscord, rfl, rfl⟩

theorem joined_iff (s : State) : joined s = true ↔ s.ftu.station ≠ .detached := by simp [joined]

theorem lockedOn_iff (s : State) : lockedOn s = true ↔ s.ftu.station = .synced ∨ s.ftu.station = .holdover := by
  simp [lockedOn]

/-- The station enters SYNCED or HOLDOVER. -/
theorem Works.setFtu_locks {f : Ftu → Ftu} {s : State} (h : lockedOn (Machine.setFtu f s) = true) :
    Works s (Machine.setFtu f s) :=
  .setFtu (fun _ => by
    rw [lockedOn_iff] at h
    rw [joined_iff]
    rcases h with h | h <;> rw [h] <;> decide) fun _ _ => h

/-- The station state stays. -/
theorem Works.setFtu_station {f : Ftu → Ftu} {s : State} (h : (f s.ftu).station = s.ftu.station) :
    Works s (Machine.setFtu f s) := by
  refine .setFtu (fun hj => ?_) fun _ hl => ?_
  · rw [joined_iff] at hj ⊢
    rwa [setFtu_ftu, h]
  · rw [lockedOn_iff] at hl ⊢
    rwa [setFtu_ftu, h]

/-! ### The slots and mute (R23, R37, R156) -/

/-- R23: the MARK slot may always be emptied. -/
theorem publishingOk_withdraw {s : State} (h : publishingOk s) :
    publishingOk { s with pub := { s.pub with markSlot := none } } := by
  obtain ⟨hqueue, ⟨-, hmute, hleft, htx⟩, -, hroll, hfaults⟩ := h
  exact ⟨hqueue, ⟨fun hm => absurd rfl hm, hmute, hleft, htx⟩, rfl, hroll, hfaults⟩

theorem Reaches.withdrawMark (s : State) : Reaches s (withdrawMark s) := .setLine rfl publishingOk_withdraw

/-- R22, R36: a MARK request is raised while the station is locked on and not muted. -/
theorem Reaches.raiseMark {b : Time} {s : State} (hlocked : lockedOn s = true) (hmuted : s.liu.muted = false) :
    Reaches s (raiseMark b s) := by
  refine Reaches.trans ?_ (.askArbiter _)
  refine .setLine rfl fun ⟨hqueue, ⟨_, hmute, hleft, htx⟩, _, hroll, hfaults⟩ => ?_
  exact ⟨hqueue, ⟨fun _ => ⟨hlocked, hmuted⟩, hmute, hleft, htx⟩, rfl, hroll, hfaults⟩

theorem Reaches.raiseRoll {s : State} (hmuted : s.liu.muted = false) : Reaches s (raiseRoll s) := by
  refine Reaches.trans ?_ (.askArbiter _)
  refine .setLine rfl fun ⟨hqueue, ⟨hmark, _, hleft, htx⟩, hslot, _, hfaults⟩ => ?_
  exact ⟨hqueue, ⟨hmark, fun hm => absurd (hmuted.symm.trans hm) Bool.false_ne_true, hleft, htx⟩, hslot, rfl, hfaults⟩

/-- R37: at the end of a mute spell no entry keeps a count of 8. -/
theorem clearMuteCause_spec (e : QueueEntry) :
    (clearMuteCause e).copiesSent = e.copiesSent ∧ (clearMuteCause e).faults < Config.muteFaults := by
  unfold clearMuteCause
  split
  · exact ⟨rfl, by show 0 < Config.muteFaults; decide⟩
  · next h => exact ⟨rfl, Nat.not_le.1 h⟩

theorem Reaches.endMute (s : State) : Reaches s (endMute s) := by
  refine Reaches.trans ?_ (.writeRecord ..)
  refine .setLine rfl fun ⟨⟨hlength, hlow, hhigh, hsent⟩, ⟨hmark, _, _, htx⟩, hslot, hroll, _⟩ => ?_
  refine ⟨⟨by simpa using hlength, hlow, hhigh, ?_⟩, ⟨fun hm => ⟨(hmark hm).1, rfl⟩, nofun, fun _ => rfl, htx⟩,
    hslot, hroll, ?_⟩
  · intro e he
    obtain ⟨x, hx, rfl⟩ := List.mem_map.1 he
    rw [(clearMuteCause_spec x).1]
    exact hsent x hx
  · intro e he
    obtain ⟨x, hx, rfl⟩ := List.mem_map.1 he
    have hlt := (clearMuteCause_spec x).2
    exact ⟨Nat.le_of_lt hlt, fun h => absurd h (Nat.ne_of_lt hlt)⟩

/-- R37: a boundary of a mute spell that is not its last. -/
theorem Reaches.countMute {s : State} (hmuted : s.liu.muted = true) (hlast : lastMuteBoundary s = false) :
    Reaches s (countMute s) := by
  have hmore : 1 < s.liu.muteLeft.toNat := by simpa [lastMuteBoundary, hmuted] using hlast
  refine .setLine (p := s.pub) rfl fun ⟨hqueue, ⟨hmark, hmute, _, htx⟩, hfaults⟩ => ?_
  obtain ⟨hroll, _, hhigh, hj, ht⟩ := hmute hmuted
  refine ⟨hqueue, ⟨hmark, fun _ => ⟨hroll, ?_, ?_, hj, ht⟩, fun h => ?_, htx⟩, hfaults⟩
  · show 1 ≤ (s.liu.muteLeft - 1).toNat
    bv_omega
  · show (s.liu.muteLeft - 1).toNat ≤ 16
    bv_omega
  · exact absurd hmuted (by simp [show s.liu.muted = false from h])

theorem Reaches.muteBoundary (s : State) : Reaches s (muteBoundary s) := by
  unfold Machine.muteBoundary
  split
  · exact .endMute s
  · next hlast =>
    split
    · next hmuted => exact .countMute hmuted (by simpa using hlast)
    · exact .refl s

/-! ### Boundaries (R13, R22) -/

theorem Reaches.withdrawEarlier (b : Time) (s : State) : Reaches s (withdrawEarlier b s) := by
  unfold Machine.withdrawEarlier
  split
  · split
    · exact .withdrawMark s
    · exact .refl s
  · exact .refl s

theorem withdrawEarlier_ftu (b : Time) (s : State) : (withdrawEarlier b s).ftu = s.ftu := by
  unfold withdrawEarlier; repeat' split
  all_goals rfl

theorem lockedOn_of_ftu {s t : State} (h : t.ftu = s.ftu) : lockedOn t = lockedOn s := by
  simp [lockedOn, h]

theorem joined_of_ftu {s t : State} (h : t.ftu = s.ftu) : joined t = joined s := by
  simp [joined, h]

theorem Reaches.ftuBoundary (b : Time) (s : State) : Reaches s (ftuBoundary b s) := by
  unfold Machine.ftuBoundary
  dsimp only
  split
  · next hlocked =>
    split
    · next h =>
      refine (Reaches.withdrawEarlier b s).trans (.raiseMark ?_ h.2)
      rwa [lockedOn_of_ftu (withdrawEarlier_ftu b s)]
    · exact .withdrawEarlier b s
  · exact .refl s

theorem Reaches.takeListenEnd (s : State) : Reaches s (takeListenEnd s) := by
  unfold Machine.takeListenEnd
  split
  · refine Reaches.trans ?_ (.writeRecord ..)
    exact .setFtu (.setFtu_locks rfl) rfl rfl rfl (fun h => nomatch h) fun h => nomatch h
  · exact .refl s

theorem Reaches.liuBoundaryTaken (s : State) : Reaches s (liuBoundaryTaken s) :=
  have h : Within s (Machine.liuBoundaryTaken s) := .setDue id (fun h => nomatch h) id id id
  h.reaches rfl rfl

theorem Reaches.takeMuteCount (s : State) : Reaches s (takeMuteCount s) := by
  unfold Machine.takeMuteCount
  split
  · exact (Reaches.muteBoundary s).trans (.liuBoundaryTaken _)
  · exact .refl s

theorem Reaches.takeUnmute (s : State) : Reaches s (takeUnmute s) := by
  unfold Machine.takeUnmute
  split
  · exact (Reaches.endMute s).trans (.liuBoundaryTaken _)
  · exact .refl s

theorem Reaches.ftuBoundaryTaken (s : State) : Reaches s { s with due := { s.due with ftuBoundary := false } } :=
  have h : Within s { s with due := { s.due with ftuBoundary := false } } := .setDue (fun h => nomatch h) id id id id
  h.reaches rfl rfl

theorem Reaches.takeBoundary (s : State) : Reaches s (takeBoundary s) := by
  unfold Machine.takeBoundary
  dsimp only
  split
  · refine (Reaches.takeListenEnd s).trans (Reaches.trans ?_ ((Reaches.ftuBoundary ..).trans (.takeMuteCount _)))
    exact .ftuBoundaryTaken _
  · exact .refl s

/-! ### Mid-epoch instants (R20, R21, R48, R50) -/

theorem Reaches.limitRecord (s : State) : Reaches s (limitRecord s) := by
  unfold Machine.limitRecord
  split
  · exact .writeRecord ..
  · exact .refl s

theorem Reaches.enterHoldover (s : State) : Reaches s (enterHoldover s) := by
  refine Reaches.trans ?_ ((Reaches.writeRecord ..).trans (.limitRecord _))
  exact .setFtu (.setFtu_locks rfl) rfl rfl rfl (fun h => nomatch h) fun h => nomatch h

theorem Reaches.holdoverCheck (b : Time) (s : State) : Reaches s (holdoverCheck b s) := by
  unfold Machine.holdoverCheck
  split
  · exact .refl s
  · split
    · exact .enterHoldover s
    · exact .enterHoldover s
    · split
      · exact .refl s
      · exact (Reaches.setFtu (.setFtu_station rfl) rfl rfl rfl id id).trans (.limitRecord _)
    all_goals exact .refl s

theorem Reaches.foldPeerLost (es : List RosterEntry) (s : State) : Reaches s (es.foldl peerLost s) := by
  induction es generalizing s with
  | nil => exact .refl s
  | cons x es ih => exact (Reaches.writeRecord ..).trans (ih _)

theorem Reaches.ageRoster (e : Time) (s : State) : Reaches s (ageRoster e s) := by
  refine Reaches.trans ?_ (.foldPeerLost ..)
  exact (Within.setRoster (rosterOk_sublist List.filter_sublist)).reaches rfl rfl

theorem Reaches.rollRequest (e : Time) (s : State) : Reaches s (rollRequest e s) := by
  unfold Machine.rollRequest
  split
  · next h => exact .raiseRoll h.2
  · exact .refl s

theorem Reaches.midEpochAt (m : Time) (rosterFirst : Bool) (s : State) : Reaches s (midEpochAt m rosterFirst s) := by
  unfold Machine.midEpochAt rosterMidEpoch
  dsimp only
  split
  · exact (Reaches.ageRoster ..).trans ((Reaches.rollRequest ..).trans (.holdoverCheck ..))
  · exact (Reaches.holdoverCheck ..).trans ((Reaches.ageRoster ..).trans (.rollRequest ..))

theorem Reaches.midEpochTaken (s : State) : Reaches s { s with due := { s.due with midEpoch := false } } :=
  have h : Within s { s with due := { s.due with midEpoch := false } } := .setDue id id (fun h => nomatch h) id id
  h.reaches rfl rfl

theorem Reaches.takeMidEpoch (rosterFirst : Bool) (s : State) : Reaches s (takeMidEpoch rosterFirst s) := by
  unfold Machine.takeMidEpoch
  split
  · exact (Reaches.midEpochTaken s).trans (.midEpochAt ..)
  · exact .refl s

/-! ### The present instant (log entry 4) -/

/-- What settling makes of the station: T and the station's LISTENING or DISCORD do not begin. -/
structure Settles (s t : State) : Prop extends Works s t where
  time : t.ftu.time = s.ftu.time
  listenEnd : t.ftu.listenEnd = s.ftu.listenEnd
  stall : t.ftu.stall = s.ftu.stall
  listening : t.ftu.station = .listening → s.ftu.station = .listening
  discord : t.ftu.station = .discord → s.ftu.station = .discord
  schedule : scheduleOk s → scheduleOk t

theorem Settles.refl (s : State) : Settles s s := ⟨.refl s, rfl, rfl, rfl, id, id, id⟩

theorem Settles.trans {s t u : State} (h : Settles s t) (k : Settles t u) : Settles s u :=
  ⟨h.toWorks.trans k.toWorks, k.time.trans h.time, k.listenEnd.trans h.listenEnd, k.stall.trans h.stall,
    h.listening ∘ k.listening, h.discord ∘ k.discord, k.schedule ∘ h.schedule⟩

theorem Within.settles {s t : State} (h : Within s t) : Settles s t :=
  ⟨h.toWorks, by rw [h.ftu], by rw [h.ftu], by rw [h.ftu], by rw [h.ftu]; exact id, by rw [h.ftu]; exact id, h.schedule⟩

theorem Reaches.settles {s t : State} (h : Reaches s t) : Settles s t := by
  refine ⟨h.toWorks, h.time, h.listenEnd, h.stall, h.listening, h.discord, fun hs => ?_⟩
  unfold scheduleOk
  rw [h.time, h.schedule]
  exact hs

/-- What settling takes before the release. -/
def settleBlocks (s : State) : State := takeMidEpoch false (takeUnmute (takeMuteCount (takeBoundary (takeListenEnd s))))

theorem settle_eq (s : State) : settle s = allChannels.foldl settleChannel (releaseDue (settleBlocks s)) := rfl

theorem Reaches.settleBlocks (s : State) : Reaches s (settleBlocks s) :=
  (Reaches.takeListenEnd s).trans <| (Reaches.takeBoundary _).trans <| (Reaches.takeMuteCount _).trans <|
    (Reaches.takeUnmute _).trans (.takeMidEpoch ..)

theorem Settles.settle (s : State) : Settles s (settle s) :=
  (Reaches.settleBlocks s).settles.trans ((Within.releaseDue _).trans (.settleChannels ..)).settles

end Sys2Proof.Machine
end

section
/-! Marks, frames from peers and the line: what they keep (R9 to R19, R31 to R42, R46 to R58, R155, R156). -/

namespace Sys2Proof.Machine

-- Proofs elaborated side by side need more threads than the memory limit of the check holds.
set_option Elab.async false

/-! ### Forward steps (R15, R85) -/

/-- The schedule bears on no other component. -/
theorem Works.setSchedule (l : List PendingAction) (s : State) : Works s { s with schedule := l } :=
  ⟨.refl _, fun _ => .refl _, id, id, rfl, id, rfl, rfl, rfl, rfl, id, id, id, id, id⟩

theorem Reaches.stepBoundary (b : Time) (s : State) : Reaches s (stepBoundary b s) := by
  unfold Machine.stepBoundary
  split
  · exact (Reaches.withdrawEarlier b s).trans (.muteBoundary _)
  · exact .muteBoundary s

theorem Reaches.stepReached (d : Nat) (agingFirst : Bool) (s : State) : Reaches s (stepReached d agingFirst s) := by
  unfold Machine.stepReached
  dsimp only
  have hboundary : Reaches s (if reachedByStep s.ftu.time d (boundaryAtOrBefore s.params.k s.ftu.time) then
      Machine.stepBoundary (boundaryAtOrBefore s.params.k s.ftu.time) s else s) := by
    split
    · exact .stepBoundary ..
    · exact .refl s
  split
  · exact hboundary.trans (.midEpochAt ..)
  · exact hboundary

/-- R85: the actions that a step passes leave the list. -/
def unpassed (t0 : Time) (d : Nat) (l : List PendingAction) : List PendingAction :=
  l.filter fun a => !(decide (1 ≤ distance t0 a) && decide (distance t0 a ≤ d))

theorem Works.stepRelease (t0 : Time) (d : Nat) (s : State) : Works s (stepRelease t0 d s) :=
  (Works.setSchedule _ s).trans ((Within.count ..).trans (.applyAll ..)).toWorks

theorem stepRelease_ftu (t0 : Time) (d : Nat) (s : State) : (stepRelease t0 d s).ftu = s.ftu :=
  ((Within.count ..).trans (.applyAll ..)).ftu

theorem stepRelease_schedule (t0 : Time) (d : Nat) (s : State) :
    (stepRelease t0 d s).schedule = unpassed t0 d s.schedule := by
  unfold stepRelease
  rw [applyAll_frame]
  rfl

theorem Works.setTime (t : Time) (s : State) : Works s (Machine.setFtu (fun f => { f with time := t }) s) :=
  .setFtu_station rfl

theorem Works.forwardStep (d : Nat) (order : MarkOrder) (s : State) : Works s (forwardStep d order s) := by
  have hset := Works.setTime ((settle s).ftu.time + BitVec.ofNat 32 d) (settle s)
  unfold Machine.forwardStep
  dsimp only
  refine (Settles.settle s).toWorks.trans (hset.trans ?_)
  split
  · exact (Works.stepRelease ..).trans (Reaches.stepReached ..).toWorks
  · exact (Reaches.stepReached ..).toWorks.trans (.stepRelease ..)

theorem forwardStep_time (d : Nat) (order : MarkOrder) (s : State) :
    (forwardStep d order s).ftu.time = s.ftu.time + BitVec.ofNat 32 d := by
  unfold forwardStep
  dsimp only
  split
  · rw [(Reaches.stepReached ..).time, stepRelease_ftu, setFtu_ftu, (Settles.settle s).time]
  · rw [stepRelease_ftu, (Reaches.stepReached ..).time, setFtu_ftu, (Settles.settle s).time]

theorem forwardStep_schedule (d : Nat) (order : MarkOrder) (s : State) :
    (forwardStep d order s).schedule = unpassed s.ftu.time d (settle s).schedule := by
  unfold forwardStep
  dsimp only
  split
  · rw [(Reaches.stepReached ..).schedule, stepRelease_schedule, setFtu_schedule, (Settles.settle s).time]
  · rw [stepRelease_schedule, (Reaches.stepReached ..).schedule, setFtu_schedule, (Settles.settle s).time]

/-- R73: the distance from a later T, of an action that T has not passed. -/
theorem distance_later {t : Time} {d : Nat} {a : PendingAction} (hd : d < distance t a) :
    distance (t + BitVec.ofNat 32 d) a = distance t a - d := by
  unfold distance at *
  have hlt : (a.due - t).toNat < 2 ^ 32 := (a.due - t).isLt
  have hsub : a.due - (t + BitVec.ofNat 32 d) = (a.due - t) - BitVec.ofNat 32 d := by bv_omega
  rw [hsub, BitVec.toNat_sub, BitVec.toNat_ofNat, Nat.mod_eq_of_lt (by omega : d < 2 ^ 32)]
  omega

/-- R73: as T moves on by `d`, the actions that it does not pass keep their order and come nearer. -/
theorem scheduleOk_later {d : Nat} {s t : State} (ht : t.ftu.time = s.ftu.time + BitVec.ofNat 32 d)
    (hsub : t.schedule.Sublist s.schedule) (hfar : ∀ a ∈ t.schedule, d < distance s.ftu.time a) (h : scheduleOk s) :
    scheduleOk t := by
  obtain ⟨hlength, hmem, hsorted⟩ := h
  refine ⟨Nat.le_trans hsub.length_le hlength, fun a ha => ?_, ?_⟩
  · have hda := hfar a ha
    have hold := hmem a (hsub.subset ha)
    rw [ht, distance_later hda]
    omega
  · refine (hsorted.sublist hsub).imp_of_mem fun {a b} ha hb hab => ?_
    rw [ht, distance_later (hfar a ha), distance_later (hfar b hb)]
    omega

theorem scheduleOk_forwardStep {d : Nat} {order : MarkOrder} {s : State} (h : scheduleOk s) :
    scheduleOk (forwardStep d order s) := by
  have hsettled := (Settles.settle s).schedule h
  have htime := (Settles.settle s).time
  refine scheduleOk_later (d := d) (s := settle s) ?_ ?_ (fun a ha => ?_) hsettled
  · rw [forwardStep_time, htime]
  · rw [forwardStep_schedule]; exact List.filter_sublist
  · rw [forwardStep_schedule] at ha
    obtain ⟨hin, hout⟩ := List.mem_filter.1 ha
    have hpos := (hsettled.2.1 a hin).1
    rw [htime] at hpos ⊢
    simp only [Bool.not_eq_true', Bool.and_eq_false_iff, decide_eq_false_iff_not] at hout
    omega

/-! ### Marks (R11 to R19) -/

/-- A mark's change of the FTU, T aside: T and the schedule stay. -/
structure Marks (s t : State) : Prop extends Works s t where
  schedule : scheduleOk s → scheduleOk t

theorem Marks.refl (s : State) : Marks s s := ⟨.refl s, id⟩

theorem Marks.trans {s t u : State} (h : Marks s t) (k : Marks t u) : Marks s u :=
  ⟨h.toWorks.trans k.toWorks, k.schedule ∘ h.schedule⟩

theorem Within.marks {s t : State} (h : Within s t) : Marks s t := ⟨h.toWorks, h.schedule⟩

theorem Settles.marks {s t : State} (h : Settles s t) : Marks s t := ⟨h.toWorks, h.schedule⟩

theorem Reaches.marks {s t : State} (h : Reaches s t) : Marks s t := h.settles.marks

theorem Marks.writeRecord (r : Record) (s : State) : Marks s (writeRecord r s) := (Within.writeRecord r s).marks

theorem Marks.setFtu {f : Ftu → Ftu} {s : State} (hworks : Works s (setFtu f s))
    (htime : (f s.ftu).time = s.ftu.time) : Marks s (setFtu f s) := by
  refine ⟨hworks, fun h => ?_⟩
  unfold scheduleOk
  rw [setFtu_ftu, htime]
  exact h

theorem Marks.thenFtu {f : Ftu → Ftu} {s t : State} (h : Marks s t) (hworks : Works t (Machine.setFtu f t))
    (htime : (f t.ftu).time = t.ftu.time) : Marks s (Machine.setFtu f t) := h.trans (.setFtu hworks htime)

theorem Marks.forwardStep (d : Nat) (order : MarkOrder) (s : State) : Marks s (forwardStep d order s) :=
  ⟨.forwardStep d order s, scheduleOk_forwardStep⟩

theorem Marks.followOffset (d : Int) (order : MarkOrder) (s : State) : Marks s (followOffset d order s) := by
  unfold Machine.followOffset
  dsimp only
  have hset : Marks s (Machine.setFtu (fun f => { f with stall := if d < 0 then BitVec.ofNat 16 d.natAbs else 0 }) s) :=
    .setFtu (.setFtu_station rfl) rfl
  split
  · exact hset.trans (.forwardStep ..)
  · exact hset

theorem Marks.leaveHoldover (origin : StationId) (s : State) : Marks s (leaveHoldover origin s) := by
  unfold Machine.leaveHoldover
  split
  · refine Marks.trans ?_ (.writeRecord ..)
    exact .setFtu (.setFtu_locks rfl) rfl
  · exact .refl s

theorem Marks.withdrawSame (b : Time) (s : State) : Marks s (withdrawSame b s) := by
  unfold Machine.withdrawSame
  split
  · split
    · exact (Reaches.withdrawMark s).marks
    · exact .refl s
  · exact .refl s

theorem Marks.followMark (origin : StationId) (m : MarkFields) (order : MarkOrder) (s : State) :
    Marks s (followMark origin m order s) := by
  have hset : Marks s (Machine.setFtu (fun f => { f with marker := some m.boundary }) s) := .setFtu (.setFtu_station rfl) rfl
  exact hset.trans ((Marks.leaveHoldover ..).trans ((Marks.withdrawSame ..).trans (.followOffset ..)))

/-- R17: with the request withdrawn, the station may leave SYNCED and HOLDOVER. -/
theorem Marks.enterDiscord {origin : StationId} {m : MarkFields} {s : State} :
    Marks s (enterDiscord origin m s) := by
  refine (Reaches.withdrawMark s).marks.trans (Marks.trans ?_ (.writeRecord ..))
  exact .setFtu (f := fun f => { f with station := .discord, discordCount := 1, holdoverCount := 0, stall := 0 })
    (.setFtu (fun _ => rfl) fun h => absurd rfl h) rfl

theorem Marks.endDiscord (origin : StationId) (m : MarkFields) (order : MarkOrder) (s : State) :
    Marks s (endDiscord origin m order s) := by
  refine Marks.trans ?_ ((Marks.writeRecord ..).trans (.followOffset ..))
  exact .setFtu (.setFtu_locks rfl) rfl

theorem scheduleOk_nil {s : State} (h : s.schedule = []) : scheduleOk s := by
  simp [scheduleOk, h]

theorem Within.flushSchedule (s : State) : Within s (flushSchedule s) := by
  unfold Machine.flushSchedule
  split
  · exact .refl s
  · exact (Within.setSchedule fun _ => scheduleOk_nil rfl).trans (.writeRecord ..)

theorem flushSchedule_schedule (s : State) : (flushSchedule s).schedule = [] := by
  unfold flushSchedule
  split
  · next h => exact List.isEmpty_iff.1 h
  · rw [writeRecord_schedule]

theorem Within.refreshRoster (s : State) : Within s (refreshRoster s) := .setRoster (rosterOk_map fun _ => rfl)

/-- R11: a hard set flushes the schedule, so that any T will do. -/
theorem Marks.hardSet (m : MarkFields) (s : State) : Marks s (hardSet m s) := by
  refine ⟨?_, fun _ => scheduleOk_nil (flushSchedule_schedule _)⟩
  have hset : Works s (Machine.setFtu
      (fun f => { f with time := markReference s.params m, stall := 0, marker := some m.boundary }) s) :=
    .setFtu_station rfl
  exact hset.trans ((Within.flushSchedule _).trans (.refreshRoster _)).toWorks

theorem Marks.adopt (origin : StationId) (m : MarkFields) (s : State) : Marks s (adopt origin m s) := by
  refine (Marks.hardSet m s).trans (Marks.trans ?_ (.writeRecord ..))
  exact .setFtu (.setFtu_locks rfl) rfl

theorem Marks.resync (origin : StationId) (m : MarkFields) (s : State) : Marks s (resync origin m s) := by
  have hrecords (r : Record) : Marks s (Machine.writeRecord r (Machine.hardSet m s)) :=
    (Marks.hardSet m s).trans (.writeRecord ..)
  exact (hrecords _).thenFtu (f := fun f => { f with discordCount := 0, holdoverCount := 0, station := .synced })
    (.setFtu_locks rfl) rfl

theorem Marks.countDiscord (origin : StationId) (m : MarkFields) (s : State) : Marks s (countDiscord origin m s) := by
  unfold Machine.countDiscord
  split
  · exact .setFtu (.setFtu_station rfl) rfl
  · exact .resync origin m s

theorem Settles.judgeBeforeStall (m : MarkFields) (agingFirst : Bool) (s : State) :
    Settles s (judgeBeforeStall m agingFirst s) := by
  unfold Machine.judgeBeforeStall
  split
  · refine Settles.trans ?_ (Reaches.takeMidEpoch ..).settles
    split
    · exact (Reaches.setFtu (.setFtu_station rfl) rfl rfl rfl id id).settles
    · exact .refl s
  · exact .refl s

theorem Settles.boundaryOfSpell (m : MarkFields) (s : State) : Settles s (boundaryOfSpell m s) := by
  unfold Machine.boundaryOfSpell
  split
  · exact (Reaches.takeBoundary s).settles
  · exact .refl s

theorem Settles.beforeMark (m : MarkFields) (order : MarkOrder) (s : State) : Settles s (beforeMark m order s) := by
  unfold Machine.beforeMark
  split
  · exact .settle s
  · split
    · exact (Settles.boundaryOfSpell m s).trans (.judgeBeforeStall ..)
    · exact .boundaryOfSpell m s

theorem Marks.ftuTakesMark (origin : StationId) (m : MarkFields) (order : MarkOrder) (s : State) :
    Marks s (ftuTakesMark origin m order s) := by
  unfold Machine.ftuTakesMark
  dsimp only
  refine (Settles.beforeMark m order s).marks.trans ?_
  split
  · exact .refl _
  · exact .adopt ..
  · split
    · exact .followMark ..
    · exact .enterDiscord
  · split
    · exact .followMark ..
    · exact .enterDiscord
  · split
    · exact .endDiscord ..
    · exact .countDiscord ..

/-! ### Frames from peers (R41, R46, R52, R54) -/

theorem Marks.takeMark {origin : StationId} (m : MarkFields) (order : MarkOrder) {s : State}
    (hvalid : validOrigin origin = true) (hid : origin ≠ s.params.id) : Marks s (takeMark origin m order s) := by
  unfold Machine.takeMark
  split
  · exact (Within.hearPeer hvalid hid).marks.trans (.ftuTakesMark ..)
  · have hmark := Marks.ftuTakesMark origin m order s
    exact hmark.trans (Within.hearPeer hvalid (by rwa [hmark.params])).marks

theorem Within.acceptEvent (origin : StationId) (e : EventFields) (s : State) : Within s (acceptEvent origin e s) := by
  unfold Machine.acceptEvent
  dsimp only
  have hentry : Within s (Machine.updateEntry origin (fun entry => { entry with lastSequence := some e.sequence }) s) :=
    .updateEntry origin s fun _ => rfl
  refine hentry.trans (Within.trans ?_ (.walkArrival ..))
  split
  · exact .refl _
  · exact .count ..

theorem Within.takeEvent {origin : StationId} (e : EventFields) {s : State} (hvalid : validOrigin origin = true)
    (hid : origin ≠ s.params.id) : Within s (takeEvent origin e s) := by
  unfold Machine.takeEvent
  dsimp only
  refine (Within.hearPeer hvalid hid).trans ?_
  split
  · exact .count ..
  · split
    · exact .acceptEvent ..
    · exact .count ..
    · exact .count ..

theorem Within.takeRoll {origin : StationId} (r : RollFields) {s : State} (hvalid : validOrigin origin = true)
    (hid : origin ≠ s.params.id) : Within s (takeRoll origin r s) := by
  unfold Machine.takeRoll
  dsimp only
  refine (Within.hearPeer hvalid hid).trans ?_
  split
  · exact .updateEntry _ _ fun _ => rfl
  · exact .writeRecord ..

/-- The transmitter is as it was: mute and the attempts on the line bear on the receiver in nothing. -/
theorem Within.setLiu_receiver {f : Liu → Liu} {s : State} (htx : (f s.liu).tx = s.liu.tx)
    (hmuted : (f s.liu).muted = s.liu.muted) (hleft : (f s.liu).muteLeft = s.liu.muteLeft) : Within s (setLiu f s) := by
  refine .setLine (p := s.pub) rfl fun h => ?_
  unfold publishingOk queueOk muteOk faultsOk
  rw [htx, hmuted, hleft]
  exact h

theorem Within.frameEnds (s : State) : Within s (frameEnds s) := .setLiu_receiver rfl rfl rfl

theorem Within.frameReceived (s : State) : Within s (frameReceived s) := (Within.frameEnds s).trans (.count ..)

theorem Within.discardMalformed (s : State) : Within s (discardMalformed s) := (Within.frameEnds s).trans (.count ..)

theorem Within.discardChecked (s : State) : Within s (discardChecked s) := (Within.frameEnds s).trans (.count ..)

/-- R39, R41: what a delivery does: nothing outside a reception, a discard, or the branch that the origin selects. -/
theorem deliver_cases (f : Frame) (own peer : State → State) (s : State) :
    deliver f own peer s = s ∨ deliver f own peer s = discardMalformed s ∨
      deliver f own peer s = own (frameReceived s) ∨
      validOrigin f.origin = true ∧ f.origin ≠ s.params.id ∧ deliver f own peer s = peer (frameReceived s) := by
  cases hs : receiving s with
  | false => exact .inl (by rw [deliver, hs]; rfl)
  | true =>
    cases hf : frameWellFormed f with
    | false => exact .inr (.inl (by rw [deliver, hs, hf]; rfl))
    | true =>
      rw [deliver_of_wellFormed own peer hs hf]
      split
      · exact .inr (.inr (.inl rfl))
      · next hid =>
        refine .inr (.inr (.inr ⟨?_, hid, rfl⟩))
        unfold frameWellFormed at hf
        exact (Bool.and_eq_true_iff.1 hf).1

theorem Within.deliver {f : Frame} {own peer : State → State} {s : State} (hown : ∀ t, Within t (own t))
    (hpeer : ∀ t, validOrigin f.origin = true → f.origin ≠ t.params.id → Within t (peer t)) :
    Within s (deliver f own peer s) := by
  obtain h | h | h | ⟨hvalid, hid, h⟩ := deliver_cases f own peer s <;> rw [h]
  · exact .refl s
  · exact .discardMalformed s
  · exact (Within.frameReceived s).trans (hown _)
  · exact (Within.frameReceived s).trans (hpeer _ hvalid hid)

theorem Within.ownIdRoll (s : State) : Within s (ownIdRoll s) := (Within.count ..).trans (.writeRecord ..)

/-! ### The line (R31 to R42, R155) -/

theorem Within.lineBecomesIdle (s : State) : Within s (lineBecomesIdle s) :=
  (Within.setLiu_receiver rfl rfl rfl).trans (.askArbiter _)

/-- R35: a muted station drives no frame. -/
theorem muted_eq_false_of_sending {s : State} (h : muteOk s) (htx : s.liu.tx ≠ .ready) : s.liu.muted = false := by
  obtain ⟨-, hmute, -, -⟩ := h
  exact Bool.eq_false_iff.2 fun hm => htx (hmute hm).2.2.2.2

/-- R32 to R34: the transmitter goes on to a state that does not send, and mute stays as it is. -/
theorem Within.setTx {f : Liu → Liu} {s : State} (hold : s.liu.tx ≠ .ready)
    (hnew : (f s.liu).tx = .head ∨ (f s.liu).tx = .body → s.liu.tx = .head ∨ s.liu.tx = .body)
    (hmuted : (f s.liu).muted = s.liu.muted) (hleft : (f s.liu).muteLeft = s.liu.muteLeft) : Within s (setLiu f s) := by
  refine .setLine (p := s.pub) rfl fun ⟨hqueue, hmute, hslot, hroll, hfaults⟩ => ?_
  have hunmuted := muted_eq_false_of_sending hmute hold
  obtain ⟨hmark, -, hzero, hjoined⟩ := hmute
  rw [hunmuted] at hmuted
  refine ⟨hqueue, ⟨fun h => ⟨(hmark h).1, hmuted⟩, fun h => ?_, fun _ => hleft.trans (hzero hunmuted), fun h => hjoined (hnew h)⟩, hslot, hroll,
    fun e he => ⟨(hfaults e he).1, fun h8 => ?_⟩⟩
  · exact absurd hmuted (by rw [show (f s.liu).muted = true from h]; decide)
  · exact absurd hunmuted (by rw [(hfaults e he).2 h8]; decide)

theorem Within.attemptOver {s : State} (h : s.liu.tx ≠ .ready) : Within s (attemptOver s) :=
  .setTx h (fun h => by rcases h with h | h <;> nomatch h) rfl rfl

theorem Within.drainingOver {s : State} (h : s.liu.tx ≠ .ready) : Within s (drainingOver s) := by
  refine .setTx h (fun h => ?_) rfl rfl
  dsimp only at h
  split at h <;> rcases h with h | h <;> nomatch h

/-! ### Bit faults (R33, R36) -/

theorem addFault_ownSequence (item : TxItem) (p : Pub) : (addFault item p).ownSequence = p.ownSequence := by
  cases item with
  | mark | roll => rfl
  | event => simp only [addFault]; split <;> rfl

theorem addFault_markSlot_eq_none_iff (item : TxItem) (p : Pub) :
    (addFault item p).markSlot = none ↔ p.markSlot = none := by
  cases item with
  | mark => simp [addFault]
  | roll => rfl
  | event => simp only [addFault]; split <;> rfl

theorem length_addFault_queue (item : TxItem) (p : Pub) : (addFault item p).queue.length = p.queue.length := by
  cases item with
  | mark | roll => rfl
  | event => simp only [addFault]; split <;> simp [*]

/-- R33: an entry's fault attempts rise only at the head, where they are then those of the item. -/
theorem mem_addFault_queue {item : TxItem} {p : Pub} {e : QueueEntry} (he : e ∈ (addFault item p).queue) :
    ∃ x ∈ p.queue, e.copiesSent = x.copiesSent ∧
      (e.faults = x.faults ∨ e.faults = x.faults + 1 ∧ e.faults = faultsOf item (addFault item p)) := by
  cases item with
  | mark | roll => exact ⟨e, he, rfl, .inl rfl⟩
  | event =>
    cases hq : p.queue with
    | nil => simp [addFault, hq] at he
    | cons x xs =>
      simp only [addFault, hq] at he ⊢
      rcases List.mem_cons.1 he with rfl | he
      · exact ⟨x, List.mem_cons_self, rfl, .inr ⟨rfl, rfl⟩⟩
      · exact ⟨e, List.mem_cons_of_mem _ he, rfl, .inl rfl⟩

/-- R156: below the eighth fault attempt the slots keep their bound. -/
theorem addFault_slots {item : TxItem} {p : Pub} (hfew : faultsOf item (addFault item p) < Config.muteFaults)
    (hmark : p.markSlot.all (fun r => decide (r.faults < Config.muteFaults)) = true)
    (hroll : p.rollSlot.all (fun r => decide (r.faults < Config.muteFaults)) = true) :
    (addFault item p).markSlot.all (fun r => decide (r.faults < Config.muteFaults)) = true ∧
      (addFault item p).rollSlot.all (fun r => decide (r.faults < Config.muteFaults)) = true := by
  cases item with
  | mark => refine ⟨?_, hroll⟩; cases hm : p.markSlot <;> simp_all [addFault, faultsOf]
  | roll => refine ⟨hmark, ?_⟩; cases hr : p.rollSlot <;> simp_all [addFault, faultsOf]
  | event => simp only [addFault]; split <;> exact ⟨hmark, hroll⟩

/-- R152: a fault attempt more keeps the queue's bounds. -/
theorem queueOk_addFault {item : TxItem} {s : State} (h : queueOk s) :
    queueOk { s with pub := addFault item s.pub } := by
  obtain ⟨hlength, hlow, hhigh, hsent⟩ := h
  refine ⟨?_, hlow, hhigh, fun e he => ?_⟩
  · simpa [length_addFault_queue] using hlength
  · obtain ⟨x, hx, hcopies, -⟩ := mem_addFault_queue he
    rw [hcopies]; exact hsent x hx

/-- R35, R156: while an attempt is on the line no entry has 8 fault attempts, and with one more the item alone may. -/
theorem addFault_faults {item : TxItem} {s : State} {e : QueueEntry} (hmuted : s.liu.muted = false) (h : faultsOk s)
    (he : e ∈ (addFault item s.pub).queue) : e.faults ≤ Config.muteFaults ∧
      (e.faults = Config.muteFaults → Config.muteFaults ≤ faultsOf item (addFault item s.pub)) := by
  obtain ⟨-, -, hfaults⟩ := h
  obtain ⟨x, hx, -, hcase⟩ := mem_addFault_queue he
  have hlow : x.faults ≠ Config.muteFaults := fun h8 => absurd (hmuted.symm.trans ((hfaults x hx).2 h8)) Bool.false_ne_true
  have hle := (hfaults x hx).1
  obtain heq | ⟨heq, hitem⟩ := hcase
  · exact ⟨by omega, fun h8 => absurd (heq.symm.trans h8) hlow⟩
  · exact ⟨by omega, fun h8 => by omega⟩

/-- R33, R36: a bit fault of an attempt on the line, and mute at the eighth of a pending item. -/
theorem Within.faultAttempt {a : Attempt} {s : State} (htx : s.liu.tx = .head ∨ s.liu.tx = .body) :
    Within s (faultAttempt a s) := by
  have hsending : s.liu.tx ≠ .ready := by rcases htx with h | h <;> simp [h]
  have hcount : Within s (Machine.count (fun c => { c with bitFaults := satInc c.bitFaults }) s) := .count ..
  have hsequence := addFault_ownSequence a.item s.pub
  refine hcount.trans ?_
  unfold Machine.faultAttempt
  dsimp only
  split
  · split
    · refine Within.trans ?_ (.writeRecord ..)
      refine .setLine hsequence fun ⟨hqueue, hmute, hfaults⟩ => ?_
      have hmuted := muted_eq_false_of_sending hmute hsending
      refine ⟨queueOk_addFault hqueue, ⟨fun h => absurd rfl h, fun _ => ⟨rfl, ?_, ?_, hmute.2.2.2 htx, rfl⟩, nofun,
        fun h => by rcases h with h | h <;> nomatch h⟩, rfl, rfl,
        fun e he => ⟨(addFault_faults hmuted hfaults he).1, fun _ => rfl⟩⟩
      · exact Nat.le_of_ble_eq_true rfl
      · exact Nat.le_of_ble_eq_true rfl
    · next hfew =>
      refine .setLine hsequence fun ⟨hqueue, hmute, hfaults⟩ => ?_
      have hmuted := muted_eq_false_of_sending hmute hsending
      obtain ⟨hmark, -, hleft, -⟩ := hmute
      have hslots := addFault_slots (Nat.not_le.1 hfew) hfaults.1 hfaults.2.1
      refine ⟨queueOk_addFault hqueue, ⟨fun h => hmark fun hnone => h ?_, fun h => ?_, hleft,
        fun h => by rcases h with h | h <;> nomatch h⟩, hslots.1, hslots.2,
        fun e he => ⟨(addFault_faults hmuted hfaults he).1, fun h8 => ?_⟩⟩
      · exact (addFault_markSlot_eq_none_iff a.item s.pub).2 hnone
      · exact absurd (hmuted.symm.trans h) Bool.false_ne_true
      · exact absurd ((addFault_faults hmuted hfaults he).2 h8) hfew
  · exact .attemptOver hsending

/-! ### Completions (R34, R155) -/

theorem Within.frameSent {s : State} (htx : s.liu.tx ≠ .ready) : Within s (Machine.frameEnds (Machine.attemptOver s)) :=
  (Within.attemptOver htx).trans (.frameEnds _)

/-- R155: a completed copy leaves every entry below its copies. -/
theorem publishingOk_copyCompleted {s : State} (h : publishingOk s) :
    publishingOk { s with pub := { s.pub with queue := copyCompleted s.params.copies.toNat s.pub.queue } } := by
  obtain ⟨⟨hlength, hlow, hhigh, hsent⟩, hmute, hslot, hroll, hfaults⟩ := h
  have hkeep : (copyCompleted s.params.copies.toNat s.pub.queue).length ≤ s.pub.queue.length ∧
      ∀ e ∈ copyCompleted s.params.copies.toNat s.pub.queue, e ∈ s.pub.queue ∨
        e.faults = 0 ∧ e.copiesSent < s.params.copies.toNat := by
    unfold copyCompleted
    split
    · exact ⟨Nat.zero_le _, fun e he => nomatch he⟩
    · next x xs hq =>
      rw [hq] at hsent ⊢
      split
      · exact ⟨Nat.le_succ _, fun e he => .inl (List.mem_cons_of_mem _ he)⟩
      · next hmore =>
        refine ⟨Nat.le_refl _, fun e he => ?_⟩
        have hx := hsent x List.mem_cons_self
        rcases List.mem_cons.1 he with rfl | he
        · exact .inr ⟨rfl, by show x.copiesSent + 1 < _; omega⟩
        · exact .inl (List.mem_cons_of_mem _ he)
  refine ⟨⟨Nat.le_trans hkeep.1 hlength, hlow, hhigh, fun e he => ?_⟩, hmute, hslot, hroll, fun e he => ?_⟩
  · exact (hkeep.2 e he).elim (hsent e) And.right
  · refine (hkeep.2 e he).elim (hfaults e) fun h => ?_
    rw [h.1]
    exact ⟨Nat.zero_le _, fun h8 => nomatch h8⟩

theorem Within.copyCompleted (s : State) :
    Within s { s with pub := { s.pub with queue := copyCompleted s.params.copies.toNat s.pub.queue } } :=
  .setPub rfl publishingOk_copyCompleted

theorem Within.emptyMarkSlot (s : State) : Within s { s with pub := { s.pub with markSlot := none } } :=
  .setPub rfl publishingOk_withdraw

theorem Within.emptyRollSlot (s : State) : Within s { s with pub := { s.pub with rollSlot := none } } := by
  refine .setPub rfl fun ⟨hqueue, ⟨hmark, hmute, hleft, htx⟩, hslot, _, hfaults⟩ => ?_
  exact ⟨hqueue, ⟨hmark, fun h => ⟨rfl, (hmute h).2⟩, hleft, htx⟩, hslot, rfl, hfaults⟩

theorem Marks.ownMarkCompleted (a : Attempt) (s : State) : Marks s (ownMarkCompleted a s) := by
  unfold Machine.ownMarkCompleted
  split
  · next m _ =>
    split
    · exact .setFtu (f := fun f => { f with marker := some m.boundary }) (.setFtu_station rfl) rfl
    · exact .refl s
  all_goals exact .refl s

theorem Marks.completeAttempt (a : Attempt) (s : State) : Marks s (completeAttempt a s) := by
  unfold Machine.completeAttempt
  split
  · refine Marks.trans ?_ (.ownMarkCompleted a _)
    split
    · exact (Within.emptyMarkSlot s).marks
    · exact .refl s
  · split
    · exact (Within.copyCompleted s).marks
    · exact .refl s
  · split
    · exact (Within.emptyRollSlot s).marks
    · exact .refl s

end Sys2Proof.Machine
end

section
/-! What every command but the port's own changes keeps, and what those few commands do. -/

namespace Sys2Proof.Machine

-- Proofs elaborated side by side need more threads than the memory limit of the check holds.
set_option Elab.async false

/-- The commands that change the configuration, the membership of the fabric or the record queue's head. -/
def reconfigures : Instr → Bool
  | .writeImage .. | .commit | .leave | .recordRemoved | .startUpReset => true
  | _ => false

/-- What a command that does not reconfigure keeps. -/
structure Keeps (s t : State) : Prop where
  log : LogGrows s.log t.log
  cfg : ∀ c, (channelOf t c).cfg = (channelOf s c).cfg
  channels : channelsOk s → channelsOk t
  schedule : scheduleOk s → scheduleOk t
  roster : rosterOk s → rosterOk t
  publishing : publishingOk s → publishingOk t
  staysJoined : joined s = true → joined t = true
  params : t.params = s.params
  table : t.table = s.table
  image : t.image = s.image
  pending : t.pending = s.pending

theorem Keeps.refl (s : State) : Keeps s s := ⟨.refl _, fun _ => rfl, id, id, id, id, id, rfl, rfl, rfl, rfl⟩

theorem Keeps.trans {s t u : State} (h : Keeps s t) (k : Keeps t u) : Keeps s u where
  log := h.log.trans k.log
  cfg c := (k.cfg c).trans (h.cfg c)
  channels := k.channels ∘ h.channels
  schedule := k.schedule ∘ h.schedule
  roster := k.roster ∘ h.roster
  publishing := k.publishing ∘ h.publishing
  staysJoined := k.staysJoined ∘ h.staysJoined
  params := k.params.trans h.params
  table := k.table.trans h.table
  image := k.image.trans h.image
  pending := k.pending.trans h.pending

theorem Marks.keeps {s t : State} (h : Marks s t) : Keeps s t :=
  ⟨h.log, fun c => (h.channels c).cfg, fun hs c => (h.channels c).ok (hs c), h.schedule, h.roster, h.publishing,
    h.staysJoined, h.params, h.table, h.image, h.pending⟩

/-! ### The port (R161) -/

theorem Within.setPort (p : Port) (s : State) : Within s { s with port := p } :=
  ⟨⟨.refl _, fun _ => .refl _, id, id, rfl, id, rfl, rfl, rfl, rfl, id, id, id, id, id⟩, rfl, id⟩

theorem Within.answer (r : List Byte) (s : State) : Within s (answer r s) := .setPort ..

theorem Within.whenHigh {f : State → State} {s : State} (h : Within s (f s)) : Within s (whenHigh f s) := by
  unfold Machine.whenHigh
  split
  · exact .refl s
  · exact h

theorem Within.readImage (offset : Half) (length : Byte) (s : State) : Within s (readImage offset length s) := by
  unfold Machine.readImage
  split <;> exact .answer ..

theorem Within.readIndexed {α : Type} (items : List α) (bytes : α → List Byte) (index : Byte) (s : State) :
    Within s (readIndexed items bytes index s) := by
  unfold Machine.readIndexed
  split <;> exact .answer ..

theorem Within.readRecord (s : State) : Within s (readRecord s) := by
  unfold Machine.readRecord
  split
  · exact .answer ..
  · exact .setPort ..

theorem Within.postRequest (tag : Half) (flags : Byte) (value : Half) (s : State) :
    Within s (postRequest tag flags value s) := by
  unfold Machine.postRequest
  split
  · exact .answer ..
  · split
    · exact .answer ..
    · exact (Within.releaseDue s).trans ((Within.publishLocal ..).trans (.answer ..))

/-! ### Attempts (R31, R153) -/

/-- R31: the station may drive a frame. -/
def maySend (s : State) : Prop := joined s = true ∧ s.liu.muted = false

theorem maySend_of_canAttempt {s : State} (h : canAttempt s = true) : maySend s := by
  simp only [canAttempt, Bool.and_eq_true, Bool.not_eq_true'] at h
  obtain ⟨⟨⟨hjoined, _⟩, _⟩, hmuted⟩ := h
  exact ⟨hjoined, hmuted⟩

theorem Within.startFrame (item : TxItem) (body : FrameBody) (itemPending : Bool) {s : State} (h : maySend s) :
    Within s (startFrame item body itemPending s) := by
  refine .setLine (p := s.pub) rfl fun ⟨hqueue, ⟨hmark, _, hleft, _⟩, hfaults⟩ => ?_
  exact ⟨hqueue, ⟨hmark, fun hm => absurd (h.2.symm.trans hm) Bool.false_ne_true, hleft, fun _ => h.1⟩, hfaults⟩

/-- R153: the sequence and the restart flag are assigned to the head entry, if to any. -/
theorem mem_assignSequence {p : Pub} {e : QueueEntry} (he : e ∈ (assignSequence p).queue) :
    ∃ x ∈ p.queue, e.copiesSent = x.copiesSent ∧ e.faults = x.faults := by
  cases hq : p.queue with
  | nil => simp [assignSequence, hq] at he
  | cons x xs =>
    cases hs : x.sequence with
    | some n =>
      rw [assignSequence, hq] at he
      simp only [hs, hq] at he
      exact ⟨e, he, rfl, rfl⟩
    | none =>
      rw [assignSequence, hq] at he
      simp only [hs] at he
      rcases List.mem_cons.1 he with rfl | he
      · exact ⟨x, List.mem_cons_self, rfl, rfl⟩
      · exact ⟨e, List.mem_cons_of_mem _ he, rfl, rfl⟩

theorem assignSequence_slots (p : Pub) :
    (assignSequence p).queue.length = p.queue.length ∧ (assignSequence p).markSlot = p.markSlot ∧
      (assignSequence p).rollSlot = p.rollSlot := by
  unfold assignSequence
  split
  · exact ⟨rfl, rfl, rfl⟩
  · next e es hq => split <;> simp [hq]

theorem Keeps.assignSequence (s : State) : Keeps s { s with pub := assignSequence s.pub } := by
  obtain ⟨hlength, hmarkSlot, hrollSlot⟩ := assignSequence_slots s.pub
  refine ⟨.refl _, fun _ => rfl, id, id, id, fun ⟨⟨hroom, hlow, hhigh, hsent⟩, hmute, hslot, hroll, hfaults⟩ => ?_, id, rfl,
    rfl, rfl, rfl⟩
  refine ⟨⟨hlength ▸ hroom, hlow, hhigh, fun e he => ?_⟩, ?_, ?_, ?_, fun e he => ?_⟩
  · obtain ⟨x, hx, hcopies, -⟩ := mem_assignSequence he
    rw [hcopies]; exact hsent x hx
  · simpa only [muteOk, hmarkSlot, hrollSlot, lockedOn, joined] using hmute
  · simpa only [hmarkSlot] using hslot
  · simpa only [hrollSlot] using hroll
  · obtain ⟨x, hx, -, he'⟩ := mem_assignSequence he
    rw [he']; exact hfaults x hx

theorem Keeps.beginAttempt (o : Offer) {s : State} (h : maySend s) : Keeps s (beginAttempt o s) := by
  unfold Machine.beginAttempt
  split
  · exact (Within.startFrame _ _ _ h).marks.keeps
  · dsimp only
    split
    · exact .refl s
    · have hassigned : maySend { s with pub := Machine.assignSequence s.pub } := h
      exact (Keeps.assignSequence s).trans (Within.startFrame _ _ _ hassigned).marks.keeps
  · exact (Within.startFrame _ _ _ h).marks.keeps

theorem maySend_withdrawSame {b : Time} {s : State} (h : maySend s) : maySend (withdrawSame b s) := by
  unfold withdrawSame
  split
  · split
    · exact h
    · exact h
  · exact h

theorem Keeps.attemptOffer {s : State} (h : maySend s) : Keeps s (attemptOffer s) := by
  unfold Machine.attemptOffer
  split
  · exact .refl s
  · next b _ =>
    split
    · exact .beginAttempt _ h
    · have hwithdrawn : Keeps s (Machine.setLiu (fun l => { l with offer := none }) (Machine.withdrawSame b s)) :=
        ((Marks.withdrawSame b s).trans (Within.setLiu_receiver rfl rfl rfl).marks).keeps
      dsimp only
      split
      · exact hwithdrawn.trans (.beginAttempt _ (maySend_withdrawSame h))
      · exact hwithdrawn
  · exact .beginAttempt _ h
  · exact .beginAttempt _ h

/-! ### Ticks (R1, R4, R84, R99, R111) -/

/-- What a channel keeps through anything but a COMMIT or RESET. -/
def ChannelKeeps (old new : Channel) : Prop := new.cfg = old.cfg ∧ (channelOk old → channelOk new)

theorem ChannelMove.keeps {old new : Channel} (h : ChannelMove old new) : ChannelKeeps old new := ⟨h.cfg, h.ok⟩

theorem ChannelKeeps.trans {a b c : Channel} (h : ChannelKeeps a b) (k : ChannelKeeps b c) : ChannelKeeps a c :=
  ⟨k.1.trans h.1, k.2 ∘ h.2⟩

/-- The tap instant and the sample that wait bear on nothing of R97. -/
theorem ChannelKeeps.setDue (tap sample : Bool) (ch : Channel) :
    ChannelKeeps ch { ch with tapDue := tap, sampleOpen := sample } := ⟨rfl, id⟩

theorem ChannelKeeps.tickChannel (t : Time) (late pin : Bool) (ch : Channel) :
    ChannelKeeps ch (tickChannel t late pin ch) := by
  have hcounted : ChannelKeeps ch (if ch.cfg.mode != .unused && isTapInstant ch.cfg.rateTap t then
      if late || ch.state == .starting || underflows ch then { ch with tapDue := true } else plainCount ch else ch) := by
    split
    · split
      · exact .setDue true ch.sampleOpen ch
      · exact (ChannelMove.plainCount ch).keeps
    · exact (ChannelMove.refl ch).keeps
  unfold Machine.tickChannel
  dsimp only
  split
  · split
    · exact hcounted.trans ((ChannelMove.recordSample pin _).trans (.followLevel t pin _)).keeps
    · exact hcounted.trans (.setDue _ true _)
  · exact hcounted

theorem ChannelKeeps.swallowChannel (t : Time) (pin : Bool) (ch : Channel) :
    ChannelKeeps ch (swallowChannel t pin ch) := by
  unfold Machine.swallowChannel
  split
  · split
    · exact ((ChannelMove.recordSample pin ch).trans (.followLevel t pin _)).keeps
    · exact .setDue ch.tapDue true ch
  · exact (ChannelMove.refl ch).keeps

@[simp] theorem channelOf_ofFn (f : ChannelId → Channel) (s : State) (c : ChannelId) :
    channelOf { s with channels := Vector.ofFn f } c = f c := by
  simp [channelOf_eq]

theorem scheduleOk_fabricTick {order : TickOrder} {s : State} (h : scheduleOk s) : scheduleOk (fabricTick order s) := by
  refine scheduleOk_later (d := 1) (s := s) rfl List.filter_sublist (fun a ha => ?_) h
  obtain ⟨hin, hout⟩ := List.mem_filter.1 ha
  have hpos := (h.2.1 a hin).1
  have hne : a.due ≠ s.ftu.time + 1 := by simpa using hout
  unfold distance at hpos ⊢
  bv_omega

theorem Keeps.fabricTick (order : TickOrder) (s : State) : Keeps s (fabricTick order s) := by
  have hch (c : ChannelId) : channelOf (Machine.fabricTick order s) c =
      Machine.tickChannel (s.ftu.time + 1) (order.late.getLsbD c.val) (pinLevel s c) (channelOf s c) := channelOf_ofFn _ s c
  have hkeeps (c : ChannelId) : ChannelKeeps (channelOf s c) (channelOf (Machine.fabricTick order s) c) := by
    rw [hch]; exact .tickChannel ..
  exact ⟨.refl _, fun c => (hkeeps c).1, fun hs c => (hkeeps c).2 (hs c), scheduleOk_fabricTick, id, id, id, rfl, rfl, rfl,
    rfl⟩

theorem Keeps.swallowedTick (s : State) : Keeps s (swallowedTick s) := by
  have hch (c : ChannelId) : channelOf (Machine.swallowedTick s) c =
      Machine.swallowChannel s.ftu.time (pinLevel s c) (channelOf s c) := channelOf_ofFn _ s c
  have hkeeps (c : ChannelId) : ChannelKeeps (channelOf s c) (channelOf (Machine.swallowedTick s) c) := by
    rw [hch]; exact .swallowChannel ..
  exact ⟨.refl _, fun c => (hkeeps c).1, fun hs c => (hkeeps c).2 (hs c), id, id, id, id, rfl, rfl, rfl, rfl⟩

/-! ### The commands -/

/-- A command whose condition does not hold changes nothing. -/
theorem Within.ite {p : Prop} [Decidable p] {s t : State} (h : p → Within s t) : Within s (if p then t else s) := by
  split
  · next hp => exact h hp
  · exact .refl s

theorem Keeps.ite {p : Prop} [Decidable p] {s t : State} (h : p → Keeps s t) : Keeps s (if p then t else s) := by
  split
  · next hp => exact h hp
  · exact .refl s

theorem Within.takeTapIn (c : ChannelId) (mode : Mode) (state : ChannelState) (s : State) :
    Within s (takeTapIn c mode state s) := Within.takeEventOf c (Within.tapEventIn c mode state) s

theorem Within.wonArbitration (s : State) : Within s (runCommand s .wonArbitration) := by
  show Within s (match s.liu.attempt with | none => s | some a => _)
  split
  · exact .refl s
  · split
    · next h => exact .setTx (by simp [h]) (fun _ => .inl h) rfl rfl
    · split
      · exact .setLiu_receiver rfl rfl rfl
      · exact .refl s

theorem Within.lostArbitration (position : Nat) (s : State) : Within s (runCommand s (.lostArbitration position)) := by
  show Within s (match s.liu.attempt with | none => s | some a => _)
  split
  · exact .refl s
  · split
    · split
      · next h => exact .attemptOver (by simp [h])
      · split
        · next h => exact .drainingOver (by simp [h])
        · exact .refl s
    · exact .refl s

theorem Within.bitFault (bit : Nat) (s : State) : Within s (runCommand s (.bitFault bit)) := by
  show Within s (match s.liu.attempt with | none => s | some a => _)
  split
  · exact .refl s
  · split
    · split
      · next h => exact .faultAttempt (.inl h)
      · next h => exact .faultAttempt (.inr h)
      · next h => exact (Within.drainingOver (by simp [h])).trans (.count ..)
      all_goals exact .refl s
    · exact .refl s

theorem Within.frameDiscarded (bits : List LineBit) (s : State) : Within s (runCommand s (.frameDiscarded bits)) := by
  show Within s (if receiving s then
    match receive bits with
    | .malformed => _
    | .checkError => _
    | .good _ | .unfinished => _
  else s)
  split
  · split
    · exact .discardMalformed s
    · exact .discardChecked s
    · exact .refl s
    · exact .refl s
  · exact .refl s

/-- The commands that reach the FTU, advance the ticks or assign the own sequence. -/
def reachesFtu : Instr → Bool
  | .boundaryReached | .lineUnmute | .midEpochInstant _ | .listenEnd | .completed | .markArrival .. | .fabricTick _
  | .swallowedTick | .transmissionAttempt => true
  | _ => false

/-- Any other command that does not reconfigure works within the instant. -/
theorem within_runCommand {c : Instr} (s : State) (hc : reconfigures c = false) (hf : reachesFtu c = false) :
    Within s (runCommand s c) := by
  cases c with
  | writeImage | commit | leave | recordRemoved | startUpReset => exact nomatch hc
  | boundaryReached | lineUnmute | midEpochInstant | listenEnd | completed | markArrival | fabricTick | swallowedTick
  | transmissionAttempt => exact nomatch hf
  | readImage offset length => exact .whenHigh (.readImage ..)
  | post tag flags value => exact .whenHigh (.postRequest ..)
  | readRecord => exact .whenHigh (.readRecord s)
  | readStatus =>
    exact .whenHigh (f := fun s => readStatus (releaseDue s)) ((Within.releaseDue s).trans (.answer ..))
  | readRoster index => exact .whenHigh (.readIndexed ..)
  | readSchedule index =>
    exact .whenHigh (f := fun s => Machine.readSchedule index (releaseDue s))
      ((Within.releaseDue s).trans (.readIndexed ..))
  | readChannel channel => exact .whenHigh (.readIndexed ..)
  | unknownRequest code =>
    refine .whenHigh (f := fun s => if requestCodes.contains code then s else answer [statusBadRequest] s) ?_
    split
    · exact .refl s
    · exact .answer ..
  | transactionCutShort => exact .whenHigh (.answer ..)
  | release => exact .releaseAmong s
  | lineIdle => exact .ite fun _ => .lineBecomesIdle s
  | startBit => exact .ite fun _ => .setLiu_receiver rfl rfl rfl
  | wonArbitration => exact .wonArbitration s
  | lostArbitration position => exact .lostArbitration position s
  | bitFault bit => exact .bitFault bit s
  | drainingEnd => exact .ite fun h => .drainingOver (by simp [h])
  | frameDiscarded bits => exact .frameDiscarded bits s
  | eventArrival origin e => exact .deliver (fun _ => .count ..) fun _ hvalid hid => .takeEvent e hvalid hid
  | rollArrival origin r => exact .deliver .ownIdRoll fun _ hvalid hid => .takeRoll r hvalid hid
  | start c => exact .takeEventOf c (Within.startEvent c) s
  | oneShotUnderflow c => exact .takeTapIn c _ _ s
  | leadUnderflow c => exact .takeTapIn c _ _ s
  | delayedActiveUnderflow c => exact .takeTapIn c _ _ s
  | repeatUnderflow c => exact .takeTapIn c _ _ s
  | phaseAUnderflow c => exact .takeTapIn c _ _ s
  | periodBoundary c => exact .takeTapIn c _ _ s
  | qualified c => exact .takeTapIn c _ _ s
  | pinChange c level => exact .takeEventOf c (Within.pinEvent c level) s
  | resetReturnsHigh => exact .setPort ..

theorem Marks.completed (s : State) : Marks s (runCommand s .completed) := by
  show Marks s (match s.liu.attempt with | none => s | some a => _)
  split
  · exact .refl s
  · split
    · next h => exact (Within.frameSent (by simp [h])).marks.trans (.completeAttempt ..)
    · exact .refl s

theorem Marks.markArrival (origin : StationId) (m : MarkFields) (order : MarkOrder) (s : State) :
    Marks s (runCommand s (.markArrival origin m order)) := by
  show Marks s (Machine.deliver ⟨origin, .mark m⟩ ownIdFrame (Machine.takeMark origin m order) s)
  obtain h | h | h | ⟨hvalid, hid, h⟩ := deliver_cases ⟨origin, .mark m⟩ ownIdFrame (Machine.takeMark origin m order) s <;> rw [h]
  · exact .refl s
  · exact (Within.discardMalformed s).marks
  · exact ((Within.frameReceived s).trans (.count ..)).marks
  · exact (Within.frameReceived s).marks.trans (.takeMark m order hvalid hid)

/-- The commands that advance the ticks, and the one that assigns the own sequence. -/
def ticksOrSends : Instr → Bool
  | .fabricTick _ | .swallowedTick | .transmissionAttempt => true
  | _ => false

/-- Any other command that does not reconfigure keeps what every operation of the blocks keeps. -/
theorem marks_runCommand {c : Instr} (s : State) (hc : reconfigures c = false) (hs : ticksOrSends c = false) :
    Marks s (runCommand s c) := by
  cases hf : reachesFtu c with
  | false => exact (within_runCommand s hc hf).marks
  | true =>
    cases c with
    | boundaryReached => exact (Reaches.takeBoundary s).marks
    | lineUnmute => exact (Reaches.takeUnmute s).marks
    | midEpochInstant rosterFirst => exact (Reaches.takeMidEpoch ..).marks
    | listenEnd => exact (Reaches.takeListenEnd s).marks
    | completed => exact .completed s
    | markArrival origin m order => exact .markArrival origin m order s
    | fabricTick | swallowedTick | transmissionAttempt => exact nomatch hs
    | _ => exact nomatch hf

/-- Every command that does not reconfigure keeps the invariants of the blocks and the configuration. -/
theorem keeps_runCommand {c : Instr} (s : State) (hc : reconfigures c = false) : Keeps s (runCommand s c) := by
  cases hs : ticksOrSends c with
  | false => exact (marks_runCommand s hc hs).keeps
  | true =>
    cases c with
    | fabricTick order => exact .ite fun _ => (Settles.settle s).marks.keeps.trans (.fabricTick ..)
    | swallowedTick => exact .ite fun _ => (Settles.settle s).marks.keeps.trans (.swallowedTick _)
    | transmissionAttempt => exact .ite fun h => .attemptOffer (maySend_of_canAttempt h)
    | _ => exact nomatch hs

/-! ### The commands that reconfigure -/

/-- A WRITE_IMAGE writes the image of a DETACHED station, within its 912 bytes, or only the port. -/
theorem runCommand_writeImage (offset : Half) (length : Byte) (data : List Byte) (s : State) :
    ∃ p, runCommand s (.writeImage offset length data) = { s with port := p } ∨
      joined s = false ∧ offset.toNat + (data.take length.toNat).length ≤ Config.imageBytes ∧
        runCommand s (.writeImage offset length data) =
          { s with port := p, image := writeCells s.image offset.toNat (data.take length.toNat) } := by
  show ∃ p, whenHigh (writeImage offset length data) s = _ ∨ _ ∧ _ ∧ whenHigh (writeImage offset length data) s = _
  unfold whenHigh
  split
  · exact ⟨s.port, .inl rfl⟩
  · unfold writeImage
    split
    · exact ⟨_, .inl rfl⟩
    · split
      · exact ⟨_, .inl rfl⟩
      · next hjoined =>
        split
        · next hrange =>
          simp only [imageRangeOk, Bool.and_eq_true, decide_eq_true_eq] at hrange
          refine ⟨_, .inr ⟨by simpa using hjoined, ?_, rfl⟩⟩
          rw [List.length_take]
          omega
        · exact ⟨_, .inl rfl⟩

/-- A COMMIT joins the fabric from DETACHED with an image that passes, or writes only the port. -/
theorem runCommand_commit (s : State) : ∃ p, runCommand s .commit = { s with port := p } ∨
    joined s = false ∧ validate s.image = none ∧ runCommand s .commit = { commitImage s with port := p } := by
  show ∃ p, whenHigh commitRequest s = _ ∨ _ ∧ _ ∧ whenHigh commitRequest s = _
  unfold whenHigh
  split
  · exact ⟨s.port, .inl rfl⟩
  · unfold commitRequest
    split
    · exact ⟨_, .inl rfl⟩
    · next hjoined =>
      split
      · exact ⟨_, .inl rfl⟩
      · next hvalid => exact ⟨_, .inr ⟨by simpa using hjoined, hvalid, rfl⟩⟩

/-- A LEAVE leaves the fabric from a joined state, with the release that is due behind it, or writes only the port. -/
theorem runCommand_leave (s : State) : ∃ p, runCommand s .leave = { s with port := p } ∨
    joined s = true ∧ runCommand s .leave = { leaveFabric (releaseDue s) with port := p } := by
  show ∃ p, whenHigh leaveRequest s = _ ∨ _ ∧ whenHigh leaveRequest s = _
  unfold whenHigh
  split
  · exact ⟨s.port, .inl rfl⟩
  · unfold leaveRequest
    split
    · next hjoined => exact ⟨_, .inr ⟨hjoined, rfl⟩⟩
    · exact ⟨_, .inl rfl⟩

theorem runCommand_recordRemoved (s : State) :
    runCommand s .recordRemoved = s ∨ s.log.records ≠ [] ∧ runCommand s .recordRemoved = removeRecord s := by
  show (if s.port.readOut ∧ s.log.records ≠ [] then removeRecord s else s) = s ∨ _ ∧
    (if s.port.readOut ∧ s.log.records ≠ [] then removeRecord s else s) = _
  split
  · next h => exact .inr ⟨h.2, rfl⟩
  · exact .inl rfl

/-- The state that RESET leaves. -/
def resetLowState (s : State) : State :=
  { State.reset with port := { response := [], readOut := false, resetLow := true }, pins := s.pins, pending := s.pending }

theorem runCommand_startUpReset (s : State) : runCommand s .startUpReset = resetLowState s := rfl

/-- How a property of the state is kept by every command: by what the blocks keep, and by each reconfiguration. -/
theorem runCommand_keeps {P : State → Prop} (hport : ∀ s p, P s → P { s with port := p })
    (hkeeps : ∀ s c, reconfigures c = false → P s → P (runCommand s c))
    (hwrite : ∀ s (offset : Nat) (data : List Byte), joined s = false → offset + data.length ≤ Config.imageBytes → P s →
      P { s with image := writeCells s.image offset data })
    (hcommit : ∀ s, joined s = false → validate s.image = none → P s → P (commitImage s))
    (hleave : ∀ s, joined s = true → P s → P (leaveFabric (releaseDue s)))
    (hremoved : ∀ s, s.log.records ≠ [] → P s → P (removeRecord s))
    (hreset : ∀ s, P s → P (resetLowState s)) (s : State) (c : Instr) (hs : P s) : P (runCommand s c) := by
  cases hc : reconfigures c with
  | false => exact hkeeps s c hc hs
  | true =>
    cases c with
    | writeImage offset length data =>
      obtain ⟨p, h | ⟨hjoined, hrange, h⟩⟩ := runCommand_writeImage offset length data s <;> rw [h]
      · exact hport s p hs
      · exact hport _ p (hwrite s _ _ hjoined hrange hs)
    | commit =>
      obtain ⟨p, h | ⟨hjoined, hvalid, h⟩⟩ := runCommand_commit s <;> rw [h]
      · exact hport s p hs
      · exact hport _ p (hcommit s hjoined hvalid hs)
    | leave =>
      obtain ⟨p, h | ⟨hjoined, h⟩⟩ := runCommand_leave s <;> rw [h]
      · exact hport s p hs
      · exact hport _ p (hleave s hjoined hs)
    | recordRemoved =>
      obtain h | ⟨hne, h⟩ := runCommand_recordRemoved s <;> rw [h]
      · exact hs
      · exact hremoved s hne hs
    | startUpReset => exact hreset s hs
    | _ => exact nomatch hc

end Sys2Proof.Machine
end

section
/-! The invariants that every step keeps, and the whole-machine rules that follow from what the commands keep. -/

namespace Sys2Proof.Machine

-- Proofs elaborated side by side need more threads than the memory limit of the check holds.
set_option Elab.async false

/-! ### The queue of commands -/

/-- Settles O1: the two arms of `step`. -/
theorem stepRunsFrontCommand : Obligations.StepRunsFrontCommand :=
  ⟨fun _ _ _ => rfl, fun s h => by rw [step, h]⟩

/-- Settles O2: every arm answers a next state, and what each command keeps holds the queue. -/
theorem execAnswersAndKeepsQueue : Obligations.ExecAnswersAndKeepsQueue := by
  intro c s
  refine ⟨runCommand s c, exec_eq_next c s, ?_⟩
  exact runCommand_keeps (P := fun t => t.pending = s.pending) (fun _ _ h => h)
    (fun t c hc h => (keeps_runCommand t hc).pending.trans h) (fun _ _ _ _ _ h => h) (fun _ _ _ h => h)
    (fun t _ h => (Within.releaseDue t).pending.trans h) (fun _ _ h => h) (fun _ h => h) s c rfl

/-! ### Records and image (R163, R170) -/

theorem recordsOk_removeRecord {s : State} (hne : s.log.records ≠ []) (h : recordsOk s) : recordsOk (removeRecord s) := by
  obtain ⟨hle, hlost⟩ := h
  have hpos := List.length_pos_iff.2 hne
  unfold removeRecord
  split
  · refine ⟨?_, fun h => absurd rfl h⟩
    show s.log.records.tail.length ≤ _
    rw [List.length_tail]; omega
  · next hl =>
    refine ⟨?_, fun h => absurd rfl h⟩
    show (s.log.records.tail ++ [_]).length ≤ _
    rw [List.length_append, List.length_tail, List.length_singleton]; omega

theorem recordsOk_runCommand (s : State) (c : Instr) (h : recordsOk s) : recordsOk (runCommand s c) :=
  runCommand_keeps (P := recordsOk) (fun _ _ h => h) (fun t _ hc h => (keeps_runCommand t hc).log.bounded h)
    (fun _ _ _ _ _ h => h) (fun _ _ _ h => h) (fun t _ h => (Within.releaseDue t).log.bounded h)
    (fun _ hne h => recordsOk_removeRecord hne h) (fun _ _ => ⟨Nat.zero_le _, fun h => absurd rfl h⟩) s c h

theorem imageOk_runCommand (s : State) (c : Instr) (h : imageOk s) : imageOk (runCommand s c) :=
  runCommand_keeps (P := imageOk) (fun _ _ h => h)
    (fun t c hc h => by unfold imageOk; rw [(keeps_runCommand t hc).image]; exact h)
    (fun _ _ _ _ hrange h => memoryWf_writeCells hrange h) (fun _ _ _ h => h)
    (fun t _ h => by
      show memoryWf (releaseDue t).image = true
      rw [(Within.releaseDue t).image]; exact h)
    (fun _ _ h => h) (fun _ _ => memoryWf_reset) s c h

/-- Settles O3: records join within the bounds, a removal makes room for the LOST record, and only a WRITE_IMAGE within
its range writes the image. -/
theorem stepKeepsRecordsAndImage : Obligations.StepKeepsRecordsAndImage := fun _ _ hstep =>
  ⟨fun h => step_keeps (P := recordsOk) (fun _ _ h => h) recordsOk_runCommand h hstep,
    fun h => step_keeps (P := imageOk) (fun _ _ h => h) imageOk_runCommand h hstep⟩

/-! ### Roster and schedule (R44, R73) -/

theorem rosterOk_nil {s : State} (h : s.roster = []) : rosterOk s := by simp [rosterOk, h]

theorem rosterOk_runCommand (s : State) (c : Instr) (h : rosterOk s) : rosterOk (runCommand s c) :=
  runCommand_keeps (P := rosterOk) (fun _ _ h => h) (fun t _ hc h => (keeps_runCommand t hc).roster h)
    (fun _ _ _ _ _ h => h) (fun _ _ _ _ => rosterOk_nil rfl) (fun _ _ _ => rosterOk_nil rfl) (fun _ _ h => h)
    (fun _ _ => rosterOk_nil rfl) s c h

/-- Settles O5: upkeep inserts a peer in its place, aging and refresh keep the order, and the other commands leave the
roster or empty it. -/
theorem stepKeepsRoster : Obligations.StepKeepsRoster := fun _ _ h hstep =>
  step_keeps (P := rosterOk) (fun _ _ h => h) rosterOk_runCommand h hstep

theorem scheduleOk_runCommand (s : State) (c : Instr) (h : scheduleOk s) : scheduleOk (runCommand s c) :=
  runCommand_keeps (P := scheduleOk) (fun _ _ h => h) (fun t _ hc h => (keeps_runCommand t hc).schedule h)
    (fun _ _ _ _ _ h => h) (fun _ _ _ _ => scheduleOk_nil rfl) (fun _ _ _ => scheduleOk_nil rfl) (fun _ _ h => h)
    (fun _ _ => scheduleOk_nil rfl) s c h

/-- Settles O6: placement inserts ahead of T, a tick or a forward step takes the actions that T reaches from the list, and
a hard set empties it. -/
theorem stepKeepsSchedule : Obligations.StepKeepsSchedule := fun _ _ h hstep =>
  step_keeps (P := scheduleOk) (fun _ _ h => h) scheduleOk_runCommand h hstep

/-! ### Publishing (R152, R156) -/

/-- A check of `validate` that passes hands on to the rest. -/
theorem check_eq_none_iff {α : Type} {p : Prop} [Decidable p] {r : α} {x : Option α} :
    (if ¬ p then some r else x) = none ↔ p ∧ x = none := by
  by_cases hp : p <;> simp [hp]

/-- R167: an image that passes names one to three copies. -/
theorem copies_of_validate {m : List Host.Cell} (h : validate m = none) :
    1 ≤ (paramsOf m).copies.toNat ∧ (paramsOf m).copies.toNat ≤ 3 := by
  simp only [validate, check_eq_none_iff] at h
  obtain ⟨-, -, -, -, -, hcopies, -⟩ := h
  exact hcopies

/-- Publishing with nothing to send, and a station that is not muted and sends nothing. -/
theorem publishingOk_empty {s : State} (hcopies : 1 ≤ s.params.copies.toNat ∧ s.params.copies.toNat ≤ 3)
    (hqueue : s.pub.queue = []) (hmark : s.pub.markSlot = none) (hroll : s.pub.rollSlot = none)
    (hmuted : s.liu.muted = false) (hleft : s.liu.muteLeft = 0) (htx : s.liu.tx ≠ .head ∧ s.liu.tx ≠ .body) :
    publishingOk s := by
  refine ⟨⟨?_, hcopies.1, hcopies.2, ?_⟩, ⟨?_, ?_, fun _ => hleft, ?_⟩, ?_, ?_, ?_⟩ <;>
    simp [hqueue, hmark, hroll, hmuted, htx]

/-- R43: the LIU after a COMMIT is not muted, and its transmitter is READY or drains. -/
theorem liuAtCommit_spec (l : Liu) : (liuAtCommit l).muted = false ∧ (liuAtCommit l).muteLeft = 0 ∧
    ((liuAtCommit l).tx = .ready ∨ (liuAtCommit l).tx = .draining) := by
  unfold liuAtCommit
  dsimp only
  split
  · next h => exact ⟨rfl, rfl, .inr h⟩
  · exact ⟨rfl, rfl, .inl rfl⟩

/-- R42: the LIU after a LEAVE is not muted, and its transmitter is OFF or drains. -/
theorem liuAtLeave_spec (l : Liu) : (liuAtLeave l).muted = false ∧ (liuAtLeave l).muteLeft = 0 ∧
    ((liuAtLeave l).tx = .off ∨ (liuAtLeave l).tx = .draining) := by
  unfold liuAtLeave
  dsimp only
  split
  · exact ⟨rfl, rfl, .inr rfl⟩
  · exact ⟨rfl, rfl, .inr rfl⟩
  · exact ⟨rfl, rfl, .inr rfl⟩
  · exact ⟨rfl, rfl, .inl rfl⟩
  · exact ⟨rfl, rfl, .inl rfl⟩

theorem publishingOk_commit {s : State} (hvalid : validate s.image = none) : publishingOk (commitImage s) := by
  obtain ⟨hmuted, hleft, htx⟩ := liuAtCommit_spec s.liu
  exact publishingOk_empty (copies_of_validate hvalid) rfl rfl rfl hmuted hleft
    (by rcases htx with h | h <;> simp [commitImage, h])

theorem publishingOk_leave {s : State} (h : publishingOk s) : publishingOk (leaveFabric s) := by
  obtain ⟨hmuted, hleft, htx⟩ := liuAtLeave_spec s.liu
  obtain ⟨⟨_, hcopies, hmost, _⟩, _⟩ := h
  exact publishingOk_empty ⟨hcopies, hmost⟩ rfl rfl rfl hmuted hleft
    (by rcases htx with h | h <;> simp [leaveFabric, h])

theorem publishingOk_reset (s : State) : publishingOk (resetLowState s) :=
  publishingOk_empty ⟨Nat.le_of_ble_eq_true rfl, Nat.le_of_ble_eq_true rfl⟩ rfl rfl rfl rfl rfl ⟨nofun, nofun⟩

theorem publishingOk_runCommand (s : State) (c : Instr) (h : publishingOk s) : publishingOk (runCommand s c) :=
  runCommand_keeps (P := publishingOk) (fun _ _ h => h) (fun t _ hc h => (keeps_runCommand t hc).publishing h)
    (fun _ _ _ _ _ h => h) (fun _ _ hvalid _ => publishingOk_commit hvalid)
    (fun t _ h => publishingOk_leave ((Within.releaseDue t).publishing h)) (fun _ _ h => h)
    (fun t _ => publishingOk_reset t) s c h

/-- Settles O7: each operation on the slots, the queue and mute keeps the bounds, and the others do not touch them. -/
theorem stepKeepsPublishing : Obligations.StepKeepsPublishing := fun _ _ h hstep =>
  step_keeps (P := publishingOk) (fun _ _ h => h) publishingOk_runCommand h hstep

/-! ### Channels (R97) -/

theorem channelOk_atCommit (cfg : ChannelConfig) : channelOk (channelAtCommit cfg) := by
  refine channelOk_of_bare ?_ ?_ rfl ⟨rfl, rfl, rfl⟩
  · cases hm : cfg.mode <;> simp [channelAtCommit, hm, stateSuits]
  · cases hm : cfg.mode <;> simp [channelAtCommit, hm, outputSuits, Channel.reset]

theorem channelOk_atLeave {ch : Channel} (h : channelOk ch) : channelOk (channelAtLeave ch) := by
  refine channelOk_of_bare ?_ ?_ rfl ⟨rfl, rfl, rfl⟩
  · show stateSuits ch.cfg.mode (if ch.state = .disabled then .disabled else .idle) = true
    split
    · next hs => exact hs ▸ h.suits
    · next hs => exact stateSuits_idle hs h.suits
  · by_cases hs : ch.state = .disabled <;> simp [channelAtLeave, halted, outputSuits, hs]

theorem channelsOk_commit (s : State) : channelsOk (commitImage s) := fun c => by
  rw [show channelOf (commitImage s) c = channelAtCommit (channelConfigAt s.image c.val) from channelOf_ofFn _ s c]
  exact channelOk_atCommit _

theorem channelsOk_leave {s : State} (h : channelsOk s) : channelsOk (leaveFabric s) := fun c => by
  rw [show channelOf (leaveFabric s) c = channelAtLeave (channelOf s c) from channelOf_ofFn _ s c]
  exact channelOk_atLeave (h c)

theorem channelOf_reset (c : ChannelId) : channelOf State.reset c = Channel.reset :=
  Vector.getElem_replicate c.isLt

theorem channelsOk_reset (s : State) : channelsOk (resetLowState s) := fun c => by
  rw [show channelOf (resetLowState s) c = Channel.reset from channelOf_reset c]
  exact channelOk_of_bare rfl rfl rfl ⟨rfl, rfl, rfl⟩

theorem channelsOk_runCommand (s : State) (c : Instr) (h : channelsOk s) : channelsOk (runCommand s c) :=
  runCommand_keeps (P := channelsOk) (fun _ _ h => h) (fun t _ hc h => (keeps_runCommand t hc).channels h)
    (fun _ _ _ _ _ h => h) (fun t _ _ _ => channelsOk_commit t)
    (fun t _ h => channelsOk_leave fun c => ((Within.releaseDue t).channels c).ok (h c)) (fun _ _ h => h)
    (fun t _ => channelsOk_reset t) s c h

/-- Settles O8: each action, tap instant and sample moves a channel within its mode. -/
theorem stepKeepsChannels : Obligations.StepKeepsChannels := fun _ _ h hstep =>
  step_keeps (P := channelsOk) (fun _ _ h => h) channelsOk_runCommand h hstep

/-! ### A DETACHED station (R42, R43) -/

/-- What a DETACHED station still does: the port, the counters and the pins, and the end of a draining frame. -/
structure DetachedMove (s t : State) : Prop where
  eq : t = { s with port := t.port, counters := t.counters, pins := t.pins,
                    liu := { s.liu with tx := t.liu.tx, attempt := t.liu.attempt } }
  tx : t.liu.tx = s.liu.tx ∨ t.liu.tx = .off

theorem DetachedMove.refl (s : State) : DetachedMove s s := ⟨rfl, .inl rfl⟩

theorem DetachedMove.idle {s t : State} (h : t = s) : DetachedMove s t := h ▸ .refl s

theorem DetachedMove.whenHigh {f : State → State} {s : State} (h : DetachedMove s (f s)) :
    DetachedMove s (whenHigh f s) := by
  unfold Machine.whenHigh
  split
  · exact .refl s
  · exact h

theorem DetachedMove.answer (r : List Byte) (s : State) : DetachedMove s (answer r s) := ⟨rfl, .inl rfl⟩

theorem DetachedMove.readIndexed {α : Type} (items : List α) (bytes : α → List Byte) (index : Byte) (s : State) :
    DetachedMove s (readIndexed items bytes index s) := by
  unfold Machine.readIndexed
  split <;> exact .answer ..

/-- With nothing due there is nothing to release. -/
theorem releaseDue_of_none {s : State} (h : s.due = .none) : releaseDue s = s := by
  unfold releaseDue releaseOver
  rw [h]
  show ({ s with due := Due.none } : State) = s
  rw [← h]

theorem releaseAmong_of_none {s : State} (h : s.due = .none) : releaseAmong s = s := by
  rw [releaseAmong_nil s (by rw [h]; rfl), releaseDue_of_none h]

theorem takeEventOf_of_idle {c : ChannelId} {event : State → State × Option Occurrence} {s t : State}
    (h : event s = (t, none)) : takeEventOf c event s = t := by
  unfold takeEventOf; rw [h]

theorem tapEventIn_of_noTap {c : ChannelId} {s : State} (mode : Mode) (state : ChannelState)
    (h : (channelOf s c).tapDue = false) : tapEventIn c mode state s = (s, none) := by
  simp [tapEventIn, tapDueIn, h]

theorem startEvent_of_noTap {c : ChannelId} {s : State} (h : (channelOf s c).tapDue = false) :
    startEvent c s = (s, none) := by
  simp [startEvent, h]

/-- A line event whose condition needs a joined station. -/
theorem receiving_of_detached {s : State} (h : joined s = false) : receiving s = false := by simp [receiving, h]

theorem deliver_of_detached {f : Frame} {own peer : State → State} {s : State} (h : joined s = false) :
    deliver f own peer s = s := by
  simp [deliver, receiving_of_detached h]

/-- R42, R43: what any command that does not reconfigure does to a quiet DETACHED station. -/
theorem detachedMove_runCommand {c : Instr} {s : State} (hc : reconfigures c = false) (hj : joined s = false)
    (hdue : s.due = .none) (htx : s.liu.tx = .off ∨ s.liu.tx = .draining)
    (htap : ∀ c, (channelOf s c).tapDue = false) : DetachedMove s (runCommand s c) := by
  have hstation : s.ftu.station = .detached := by simpa [joined] using hj
  have hover : DetachedMove s (drainingOver s) := ⟨rfl, .inr (by simp [drainingOver, hj])⟩
  have hrow (c : ChannelId) (mode : Mode) (state : ChannelState) : DetachedMove s (takeTapIn c mode state s) := by
    rw [takeTapIn, takeEventOf_of_idle (tapEventIn_of_noTap mode state (htap c))]; exact .refl s
  cases c with
  | writeImage | commit | leave | recordRemoved | startUpReset => exact nomatch hc
  | readImage offset length =>
    refine .whenHigh (f := readImage offset length) ?_
    unfold readImage; split <;> exact .answer ..
  | post tag flags value =>
    refine .whenHigh (f := postRequest tag flags value) ?_
    simp only [postRequest, hj]
    exact .answer ..
  | readRecord =>
    refine .whenHigh (f := readRecord) ?_
    unfold readRecord; split
    · exact .answer ..
    · exact ⟨rfl, .inl rfl⟩
  | readStatus =>
    refine .whenHigh (f := fun s => readStatus (releaseDue s)) ?_
    rw [releaseDue_of_none hdue]; exact .answer ..
  | readRoster index => exact .whenHigh (.readIndexed ..)
  | readSchedule index =>
    refine .whenHigh (f := fun s => readSchedule index (releaseDue s)) ?_
    rw [releaseDue_of_none hdue]; exact .readIndexed ..
  | readChannel channel => exact .whenHigh (.readIndexed ..)
  | unknownRequest code =>
    refine .whenHigh (f := fun s => if requestCodes.contains code then s else answer [statusBadRequest] s) ?_
    split
    · exact .refl s
    · exact .answer ..
  | transactionCutShort => exact .whenHigh (.answer ..)
  | fabricTick | swallowedTick | lineIdle | startBit =>
    exact .idle (if_neg (by simp [hj]))
  | transmissionAttempt => exact .idle (if_neg (by simp [canAttempt, hj]))
  | boundaryReached => exact .idle (if_neg (by simp [hdue, Due.none]))
  | lineUnmute => exact .idle (if_neg (by simp [hdue, Due.none]))
  | midEpochInstant rosterFirst =>
    exact .idle (if_neg (by simp [hdue, Due.none]))
  | listenEnd => exact .idle (if_neg (by simp [listenEndDue, hstation]))
  | release => exact .idle (releaseAmong_of_none hdue)
  | wonArbitration =>
    show DetachedMove s (match s.liu.attempt with | none => s | some a => _)
    split
    · exact .refl s
    · rcases htx with h | h
      · simp only [h]; exact .refl s
      · simp only [h]; exact ⟨rfl, .inl rfl⟩
  | lostArbitration position =>
    show DetachedMove s (match s.liu.attempt with | none => s | some a => _)
    split
    · exact .refl s
    · rcases htx with h | h <;> simp only [h] <;> split
      · exact .refl s
      · exact .refl s
      · exact hover
      · exact .refl s
  | bitFault bit =>
    show DetachedMove s (match s.liu.attempt with | none => s | some a => _)
    split
    · exact .refl s
    · rcases htx with h | h <;> simp only [h] <;> split
      · exact .refl s
      · exact .refl s
      · exact ⟨rfl, hover.tx⟩
      · exact .refl s
  | completed =>
    show DetachedMove s (match s.liu.attempt with | none => s | some a => _)
    split
    · exact .refl s
    · rw [if_neg (by rcases htx with h | h <;> simp [h])]; exact .refl s
  | drainingEnd =>
    show DetachedMove s (if s.liu.tx = .draining then drainingOver s else s)
    split
    · exact hover
    · exact .refl s
  | frameDiscarded bits =>
    exact .idle (if_neg (by simp [receiving_of_detached hj]))
  | markArrival | eventArrival | rollArrival => exact .idle (deliver_of_detached hj)
  | start c =>
    exact .idle (takeEventOf_of_idle (startEvent_of_noTap (htap c)))
  | oneShotUnderflow c => exact hrow ..
  | leadUnderflow c => exact hrow ..
  | delayedActiveUnderflow c => exact hrow ..
  | repeatUnderflow c => exact hrow ..
  | phaseAUnderflow c => exact hrow ..
  | periodBoundary c => exact hrow ..
  | qualified c => exact hrow ..
  | pinChange c level =>
    have hdriven : takeEventOf c (pinEvent c level) s = drivePin c level s := takeEventOf_of_idle (by simp [pinEvent, hj])
    show DetachedMove s (takeEventOf c (pinEvent c level) s)
    rw [hdriven]
    exact ⟨rfl, .inl rfl⟩
  | resetReturnsHigh => exact ⟨rfl, .inl rfl⟩

theorem DetachedMove.keeps {s t : State} (h : DetachedMove s t) (hs : detachedOk s) : detachedOk t := by
  intro hstation
  have hs' : s.ftu.station = .detached := by rw [h.eq] at hstation; exact hstation
  obtain ⟨hroster, hschedule, hqueue, hmark, hroll, hmuted, hdue, htx, hch⟩ := hs hs'
  have htx' : t.liu.tx = .off ∨ t.liu.tx = .draining := by
    rcases h.tx with h | h
    · rwa [h]
    · exact .inl h
  have heq := h.eq
  generalize t.liu.tx = tx at heq htx'
  rw [heq]
  exact ⟨hroster, hschedule, hqueue, hmark, hroll, hmuted, hdue, htx', hch⟩

theorem detachedOk_of_joined {s : State} (h : joined s = true) : detachedOk s := fun hs => absurd hs ((joined_iff s).1 h)

theorem detachedOk_leave (s : State) : detachedOk (leaveFabric s) := by
  intro _
  obtain ⟨hmuted, -, htx⟩ := liuAtLeave_spec s.liu
  refine ⟨rfl, rfl, rfl, rfl, rfl, hmuted, rfl, htx, fun c => ?_⟩
  rw [show channelOf (leaveFabric s) c = channelAtLeave (channelOf s c) from channelOf_ofFn _ s c]
  refine ⟨rfl, rfl, ?_⟩
  by_cases h : (channelOf s c).state = .disabled <;> simp [channelAtLeave, h]

theorem detachedOk_reset (s : State) : detachedOk (resetLowState s) := fun _ =>
  ⟨rfl, rfl, rfl, rfl, rfl, rfl, rfl, .inl rfl, fun c => by
    rw [show channelOf (resetLowState s) c = Channel.reset from channelOf_reset c]
    exact ⟨rfl, rfl, .inr rfl⟩⟩

theorem detachedOk_runCommand (s : State) (c : Instr) (h : detachedOk s) : detachedOk (runCommand s c) := by
  refine runCommand_keeps (P := detachedOk) (fun _ _ h => h) (fun t c hc h => ?_) (fun _ _ _ _ _ h => h)
    (fun _ _ _ _ => detachedOk_of_joined rfl) (fun t _ _ => detachedOk_leave _) (fun _ _ h => h)
    (fun t _ => detachedOk_reset t) s c h
  cases hj : joined t with
  | true => exact detachedOk_of_joined ((keeps_runCommand t hc).staysJoined hj)
  | false =>
    obtain ⟨-, -, -, -, -, -, hdue, htx, hch⟩ := h (by simpa [joined] using hj)
    exact (detachedMove_runCommand hc hj hdue htx fun c => (hch c).1).keeps h

/-- Settles O9: a joined station leaves the fabric only by LEAVE and RESET, and a DETACHED one does nothing but end the
frame it drains. -/
theorem stepKeepsDetachedQuiet : Obligations.StepKeepsDetachedQuiet := fun _ _ h hstep =>
  step_keeps (P := detachedOk) (fun _ _ h => h) detachedOk_runCommand h hstep

/-! ### Whole-machine rules -/

/-- Settles O11: a COMMIT and a WRITE_IMAGE are locked while joined, and the blocks only read the configuration. -/
theorem configurationFixedWhileJoined : Obligations.ConfigurationFixedWhileJoined := by
  intro c s t hexec hjoined hleave hreset
  obtain rfl := exec_next_iff.1 hexec
  cases hc : reconfigures c with
  | false =>
    have h := keeps_runCommand s hc
    exact ⟨h.image, h.params, h.table, h.cfg⟩
  | true =>
    cases c with
    | writeImage offset length data =>
      obtain ⟨p, h | ⟨hdetached, -⟩⟩ := runCommand_writeImage offset length data s
      · rw [h]; exact ⟨rfl, rfl, rfl, fun _ => rfl⟩
      · exact absurd (hdetached.symm.trans hjoined) Bool.false_ne_true
    | commit =>
      obtain ⟨p, h | ⟨hdetached, -⟩⟩ := runCommand_commit s
      · rw [h]; exact ⟨rfl, rfl, rfl, fun _ => rfl⟩
      · exact absurd (hdetached.symm.trans hjoined) Bool.false_ne_true
    | leave => exact absurd rfl hleave
    | recordRemoved =>
      obtain h | ⟨-, h⟩ := runCommand_recordRemoved s <;> rw [h] <;> exact ⟨rfl, rfl, rfl, fun _ => rfl⟩
    | startUpReset => exact absurd rfl hreset
    | _ => exact nomatch hc

/-- Settles O13: every command but the two leaves the log alone or writes records. -/
theorem recordsJoinAtTheTail : Obligations.RecordsJoinAtTheTail := by
  intro c s t hexec hremoved hreset
  obtain rfl := exec_next_iff.1 hexec
  have hgrows : LogGrows s.log (runCommand s c).log := by
    cases hc : reconfigures c with
    | false => exact (keeps_runCommand s hc).log
    | true =>
      cases c with
      | writeImage offset length data =>
        obtain ⟨p, h | ⟨-, -, h⟩⟩ := runCommand_writeImage offset length data s <;> rw [h] <;> exact .refl _
      | commit => obtain ⟨p, h | ⟨-, -, h⟩⟩ := runCommand_commit s <;> rw [h] <;> exact .refl _
      | leave =>
        obtain ⟨p, h | ⟨-, h⟩⟩ := runCommand_leave s <;> rw [h]
        · exact .refl _
        · exact (Within.releaseDue s).log
      | recordRemoved => exact absurd rfl hremoved
      | startUpReset => exact absurd rfl hreset
      | _ => exact nomatch hc
  exact ⟨hgrows.isPrefix, hgrows.lost, hgrows.room⟩

end Sys2Proof.Machine
end

section
/-! The FTU's counts and stall remainder (R16, R19, R21), fabric time (R1) and the own sequence (R153). -/

namespace Sys2Proof.Machine

-- Proofs elaborated side by side need more threads than the memory limit of the check holds.
set_option Elab.async false

/-! ### What leaves the FTU alone -/

theorem endMute_ftu (s : State) : (endMute s).ftu = s.ftu := writeRecord_ftu ..

theorem muteBoundary_ftu (s : State) : (muteBoundary s).ftu = s.ftu := by
  unfold muteBoundary
  split
  · exact endMute_ftu s
  · split <;> rfl

theorem takeMuteCount_ftu (s : State) : (takeMuteCount s).ftu = s.ftu := by
  unfold takeMuteCount
  split
  · exact muteBoundary_ftu s
  · rfl

theorem takeUnmute_ftu (s : State) : (takeUnmute s).ftu = s.ftu := by
  unfold takeUnmute
  split
  · exact endMute_ftu s
  · rfl

theorem askArbiter_ftu (s : State) : (askArbiter s).ftu = s.ftu := (Within.askArbiter s).ftu

theorem ftuBoundary_ftu (b : Time) (s : State) : (ftuBoundary b s).ftu = s.ftu := by
  unfold ftuBoundary
  dsimp only
  split
  · split
    · exact (askArbiter_ftu _).trans (withdrawEarlier_ftu b s)
    · exact withdrawEarlier_ftu b s
  · rfl

/-- R22: of a boundary's parts only the listen end that falls on it reaches the FTU. -/
theorem takeBoundary_ftu (s : State) : (takeBoundary s).ftu = s.ftu ∨ (takeBoundary s).ftu = (takeListenEnd s).ftu := by
  unfold takeBoundary
  dsimp only
  split
  · exact .inr ((takeMuteCount_ftu _).trans (ftuBoundary_ftu ..))
  · exact .inl rfl

theorem stepBoundary_ftu (b : Time) (s : State) : (stepBoundary b s).ftu = s.ftu := by
  unfold stepBoundary
  rw [muteBoundary_ftu]
  split
  · exact withdrawEarlier_ftu b s
  · rfl

theorem foldPeerLost_ftu (es : List RosterEntry) (s : State) : (es.foldl peerLost s).ftu = s.ftu := by
  induction es generalizing s with
  | nil => rfl
  | cons e es ih => exact (ih _).trans (writeRecord_ftu ..)

theorem rosterMidEpoch_ftu (e : Time) (s : State) : (rosterMidEpoch e s).ftu = s.ftu := by
  unfold rosterMidEpoch rollRequest
  have hage : (ageRoster e s).ftu = s.ftu := foldPeerLost_ftu ..
  split
  · exact (askArbiter_ftu _).trans hage
  · exact hage

/-! ### The counts and the stall remainder (R16, R19, R21) -/

/-- R6, R16, R19, R21: the FTU's counts and the stall remainder are in their ranges. -/
abbrev timeOk (s : State) : Prop := countsOk s ∧ stallOk s

/-- The ranges depend on the FTU, W and the mid-epoch instant that is due. -/
theorem timeOk_of_ftu {s t : State} (hftu : t.ftu = s.ftu) (hparams : t.params = s.params)
    (hmid : t.due.midEpoch = true → s.due.midEpoch = true) (h : timeOk s) : timeOk t := by
  obtain ⟨hcounts, hle, hstall⟩ := h
  refine ⟨by unfold countsOk; rwa [hftu], by rwa [hftu, hparams], fun hne => ?_⟩
  rw [hftu] at hne ⊢
  exact ⟨(hstall hne).1, Bool.eq_false_iff.2 fun hm => by simp [(hstall hne).2] at hmid; exact absurd hm (by simp [hmid])⟩

theorem timeOk_of_works {s t : State} (h : Works s t) (hftu : t.ftu = s.ftu) (hs : timeOk s) : timeOk t :=
  timeOk_of_ftu hftu h.params h.midDue hs

theorem timeOk_of_within {s t : State} (h : Within s t) (hs : timeOk s) : timeOk t := timeOk_of_works h.toWorks h.ftu hs

/-- Outside HOLDOVER and DISCORD no boundary and no mark is counted. -/
theorem countsOk_of_zero {s : State} (hholdover : s.ftu.holdoverCount = 0) (hdiscord : s.ftu.discordCount = 0)
    (h : s.ftu.station ≠ .holdover) (h' : s.ftu.station ≠ .discord) : countsOk s := by
  simp [countsOk, hholdover, hdiscord, h, h']

theorem stallOk_of_zero {s : State} (h : s.ftu.stall = 0) : stallOk s :=
  ⟨by simp [h], fun hne => absurd h hne⟩

theorem counts_eq_zero {s : State} (h : countsOk s) :
    (s.ftu.station ≠ .holdover → s.ftu.holdoverCount = 0) ∧ (s.ftu.station ≠ .discord → s.ftu.discordCount = 0) :=
  ⟨fun hne => Decidable.byContradiction fun h0 => hne (h.1.1 h0), fun hne => Decidable.byContradiction fun h0 => hne (h.2.1.1 h0)⟩

theorem stall_eq_zero {s : State} (h : stallOk s) (hs : s.ftu.station ≠ .synced ∨ s.due.midEpoch = true) :
    s.ftu.stall = 0 :=
  Decidable.byContradiction fun hne => by
    obtain ⟨hsynced, hmid⟩ := h.2 hne
    rcases hs with hs | hs
    · exact hs hsynced
    · rw [hmid] at hs; exact nomatch hs

theorem timeOk_takeListenEnd {s : State} (h : timeOk s) : timeOk (takeListenEnd s) := by
  unfold takeListenEnd
  split
  · next hdue =>
    have hstation : s.ftu.station = .listening := by
      simp only [listenEndDue, Bool.and_eq_true, beq_iff_eq] at hdue; exact hdue.1
    have hstall : s.ftu.stall = 0 := stall_eq_zero h.2 (.inl (by simp [hstation]))
    refine timeOk_of_within (.writeRecord ..) ⟨?_, stallOk_of_zero hstall⟩
    have hzero := counts_eq_zero h.1
    exact countsOk_of_zero (hzero.1 (by simp [hstation])) (hzero.2 (by simp [hstation])) (by simp) (by simp)
  · exact h

/-- R20, R21: with no stall remainder, the holdover check keeps the counts in their ranges. -/
theorem timeOk_holdoverCheck {b : Time} {s : State} (hstall : s.ftu.stall = 0) (h : timeOk s) :
    timeOk (holdoverCheck b s) := by
  have hlimit {t : State} (ht : timeOk t) : timeOk (limitRecord t) := by
    unfold limitRecord
    split
    · exact timeOk_of_within (.writeRecord ..) ht
    · exact ht
  have henter : timeOk (enterHoldover s) :=
    hlimit (timeOk_of_within (.writeRecord ..) ⟨by simp [countsOk], stallOk_of_zero hstall⟩)
  unfold holdoverCheck
  split
  · exact h
  · split
    · exact henter
    · exact henter
    · next hstation =>
      split
      · exact h
      · next hmax =>
        refine hlimit ⟨⟨?_, h.1.2⟩, stallOk_of_zero hstall⟩
        have hmore : s.ftu.holdoverCount + 1 ≠ 0 := by bv_omega
        exact ⟨fun _ => hstation, fun _ => hmore⟩
    · exact h
    · exact h

theorem timeOk_rosterMidEpoch {e : Time} {s : State} (h : timeOk s) : timeOk (rosterMidEpoch e s) :=
  timeOk_of_works ((Reaches.ageRoster e s).trans (Reaches.rollRequest e _)).toWorks (rosterMidEpoch_ftu e s) h

theorem timeOk_midEpochAt {m : Time} {rosterFirst : Bool} {s : State} (hstall : s.ftu.stall = 0) (h : timeOk s) :
    timeOk (midEpochAt m rosterFirst s) := by
  unfold midEpochAt
  dsimp only
  split
  · exact timeOk_holdoverCheck (by rwa [rosterMidEpoch_ftu]) (timeOk_rosterMidEpoch h)
  · exact timeOk_rosterMidEpoch (timeOk_holdoverCheck hstall h)

/-- R16, R20: a mid-epoch instant is due only where no stall remainder is left. -/
theorem timeOk_takeMidEpoch {rosterFirst : Bool} {s : State} (h : timeOk s) : timeOk (takeMidEpoch rosterFirst s) := by
  unfold takeMidEpoch
  split
  · next hdue =>
    have hstall : s.ftu.stall = 0 := stall_eq_zero h.2 (.inr hdue)
    exact timeOk_midEpochAt hstall (timeOk_of_works (Reaches.midEpochTaken s).toWorks rfl h)
  · exact h

theorem timeOk_takeBoundary {s : State} (h : timeOk s) : timeOk (takeBoundary s) := by
  obtain hftu | hftu := takeBoundary_ftu s
  · exact timeOk_of_works (Reaches.takeBoundary s).toWorks hftu h
  · have hlisten := timeOk_takeListenEnd h
    refine timeOk_of_ftu hftu ?_ (fun hm => ?_) hlisten
    · rw [(Reaches.takeBoundary s).params, (Reaches.takeListenEnd s).params]
    · have hdue : (takeListenEnd s).due = s.due := by
        unfold takeListenEnd; split
        · exact writeRecord_due ..
        · rfl
      rw [hdue]; exact (Reaches.takeBoundary s).midDue hm

/-- Past the listen end, the boundary, the mute count, the unmute and the mid-epoch instant, settling is a release
and channel events. -/
theorem Within.settleRest (s : State) : Within (settleBlocks s) (settle s) := by
  rw [settle_eq]; exact (Within.releaseDue _).trans (.settleChannels ..)

theorem timeOk_settle {s : State} (h : timeOk s) : timeOk (settle s) := by
  refine timeOk_of_within (Within.settleRest s) (timeOk_takeMidEpoch ?_)
  refine timeOk_of_works (Reaches.takeUnmute _).toWorks (takeUnmute_ftu _) ?_
  exact timeOk_of_works (Reaches.takeMuteCount _).toWorks (takeMuteCount_ftu _)
    (timeOk_takeBoundary (timeOk_takeListenEnd h))

/-- What takes the mid-epoch instant leaves none due. -/
theorem takeMidEpoch_midDue (rosterFirst : Bool) (s : State) : (takeMidEpoch rosterFirst s).due.midEpoch = false := by
  unfold takeMidEpoch
  split
  · exact Bool.eq_false_iff.2 fun h => Bool.false_ne_true ((Reaches.midEpochAt ..).midDue h)
  · next h => simpa using h

theorem settle_midDue (s : State) : (settle s).due.midEpoch = false := by
  refine Bool.eq_false_iff.2 fun h => ?_
  have hmid := (Within.settleRest s).midDue h
  rw [settleBlocks, takeMidEpoch_midDue] at hmid
  exact Bool.false_ne_true hmid

/-! ### Marks -/

/-- Where nothing stalls, a step of T keeps the counts and the stall remainder. -/
theorem timeOk_setTime {x : Time} {s : State} (hstall : s.ftu.stall = 0) (h : timeOk s) :
    timeOk (setFtu (fun f => { f with time := x }) s) := ⟨h.1, stallOk_of_zero hstall⟩

theorem timeOk_fabricTick {order : TickOrder} {s : State} (hstall : s.ftu.stall = 0) (h : timeOk s) :
    timeOk (fabricTick order s) := ⟨h.1, stallOk_of_zero hstall⟩

theorem timeOk_swallowedTick {s : State} (hne : s.ftu.stall ≠ 0) (h : timeOk s) : timeOk (swallowedTick s) := by
  obtain ⟨hcounts, hle, hstall⟩ := h
  refine ⟨hcounts, ?_, fun _ => hstall hne⟩
  show (s.ftu.stall - 1).toNat ≤ s.params.window.toNat
  bv_omega

theorem timeOk_stepBoundary {b : Time} {s : State} (h : timeOk s) : timeOk (stepBoundary b s) :=
  timeOk_of_works (Reaches.stepBoundary b s).toWorks (stepBoundary_ftu b s) h

/-- R4: a forward step reaches a mid-epoch instant only in a station that does not stall. -/
theorem timeOk_stepReached {d : Nat} {agingFirst : Bool} {s : State} (hstall : s.ftu.stall = 0) (h : timeOk s) :
    timeOk (stepReached d agingFirst s) := by
  unfold stepReached
  dsimp only
  split <;> split
  · exact timeOk_midEpochAt (by rwa [stepBoundary_ftu]) (timeOk_stepBoundary h)
  · exact timeOk_midEpochAt hstall h
  · exact timeOk_stepBoundary h
  · exact h

theorem timeOk_stepRelease {t0 : Time} {d : Nat} {s : State} (h : timeOk s) : timeOk (stepRelease t0 d s) :=
  timeOk_of_works (.stepRelease t0 d s) (stepRelease_ftu t0 d s) h

theorem timeOk_forwardStep {d : Nat} {order : MarkOrder} {s : State} (hstall : s.ftu.stall = 0) (h : timeOk s) :
    timeOk (forwardStep d order s) := by
  have hsettled : (settle s).ftu.stall = 0 := (Settles.settle s).stall.trans hstall
  have hok := timeOk_settle h
  unfold forwardStep
  generalize settle s = u at *
  dsimp only
  split
  · exact timeOk_stepReached (by rw [stepRelease_ftu]; exact hsettled) (timeOk_stepRelease (timeOk_setTime hsettled hok))
  · exact timeOk_stepRelease (timeOk_stepReached hsettled (timeOk_setTime hsettled hok))

/-- R9: the offset of an in-window mark, in ticks. -/
theorem inWindow_iff (s : State) (m : MarkFields) : inWindow s m = true ↔
    -(s.params.window.toNat : Int) ≤ markOffset s m ∧ markOffset s m ≤ s.params.window.toNat := by
  simp [inWindow]

/-- R14, R16: an in-window mark leaves a stall remainder of at most W in SYNCED, with no mid-epoch instant due. -/
theorem timeOk_followOffset {d : Int} {order : MarkOrder} {s : State} (hstation : s.ftu.station = .synced)
    (hcounts : countsOk s) (hlow : -(s.params.window.toNat : Int) ≤ d) (hmid : d < 0 → s.due.midEpoch = false) :
    timeOk (followOffset d order s) := by
  unfold followOffset
  dsimp only
  split
  · next hpos =>
    have hzero : (if d < 0 then BitVec.ofNat 16 d.natAbs else 0) = 0 := if_neg (by omega)
    exact timeOk_forwardStep hzero ⟨hcounts, stallOk_of_zero hzero⟩
  · refine ⟨hcounts, ?_, fun hne => ⟨hstation, hmid (Decidable.byContradiction fun h => ?_)⟩⟩
    · show (if d < 0 then BitVec.ofNat 16 d.natAbs else 0).toNat ≤ s.params.window.toNat
      split
      · have hw := s.params.window.isLt
        rw [BitVec.toNat_ofNat, Nat.mod_eq_of_lt] <;> omega
      · exact Nat.zero_le _
    · exact hne (if_neg h)

theorem countsOk_of_ftu {s t : State} (h : t.ftu = s.ftu) (hs : countsOk s) : countsOk t := by
  unfold countsOk; rwa [h]

theorem withdrawSame_ftu (b : Time) (s : State) : (withdrawSame b s).ftu = s.ftu := by
  unfold withdrawSame; repeat' split
  all_goals rfl

/-- R14: after step 2 the station is SYNCED and counts nothing. -/
theorem leaveHoldover_synced {origin : StationId} {s : State} (hs : s.ftu.station = .synced ∨ s.ftu.station = .holdover)
    (h : countsOk s) : (leaveHoldover origin s).ftu.station = .synced ∧ countsOk (leaveHoldover origin s) := by
  have hzero := counts_eq_zero h
  unfold leaveHoldover
  split
  · next hh =>
    refine ⟨by simp, countsOk_of_ftu (writeRecord_ftu ..) ?_⟩
    exact countsOk_of_zero rfl (hzero.2 (by simp [hh])) (by simp) (by simp)
  · next hh => exact ⟨hs.resolve_right hh, h⟩

theorem timeOk_followMark {origin : StationId} {m : MarkFields} {order : MarkOrder} {s : State}
    (hs : s.ftu.station = .synced ∨ s.ftu.station = .holdover) (hwindow : inWindow s m = true)
    (hmid : markOffset s m < 0 → s.due.midEpoch = false) (h : timeOk s) : timeOk (followMark origin m order s) := by
  have hmarked : countsOk (setFtu (fun f => { f with marker := some m.boundary }) s) := h.1
  obtain ⟨hsynced, hcounts⟩ :=
    leaveHoldover_synced (s := setFtu (fun f => { f with marker := some m.boundary }) s) (origin := origin) hs hmarked
  have hworks := (Marks.leaveHoldover origin (setFtu (fun f => { f with marker := some m.boundary }) s)).trans
    (.withdrawSame m.boundary _)
  refine timeOk_followOffset ?_ (countsOk_of_ftu (withdrawSame_ftu ..) hcounts) ?_ fun hneg => ?_
  · rw [withdrawSame_ftu]; exact hsynced
  · rw [hworks.params]; exact ((inWindow_iff s m).1 hwindow).1
  · exact Bool.eq_false_iff.2 fun hm => by
      have hdue := hworks.midDue hm
      rw [setFtu_due, hmid hneg] at hdue
      exact Bool.false_ne_true hdue

theorem timeOk_endDiscord {origin : StationId} {m : MarkFields} {order : MarkOrder} {s : State}
    (hs : s.ftu.station = .discord) (hwindow : inWindow s m = true) (hmid : markOffset s m < 0 → s.due.midEpoch = false)
    (h : timeOk s) : timeOk (endDiscord origin m order s) := by
  refine timeOk_followOffset (by simp) (countsOk_of_ftu (writeRecord_ftu ..) ?_) ?_ fun hneg => ?_
  · exact countsOk_of_zero ((counts_eq_zero h.1).1 (by simp [hs])) rfl (by simp) (by simp)
  · rw [writeRecord_params]; exact ((inWindow_iff s m).1 hwindow).1
  · rw [writeRecord_due]; exact hmid hneg

theorem timeOk_enterDiscord {origin : StationId} {m : MarkFields} {s : State} : timeOk (enterDiscord origin m s) :=
  timeOk_of_within (.writeRecord ..) ⟨by simp [countsOk, withdrawMark, orphanAttempt], stallOk_of_zero rfl⟩

/-- R11: after a hard set nothing stalls. -/
theorem hardSet_ftu (m : MarkFields) (s : State) :
    (hardSet m s).ftu = { s.ftu with time := markReference s.params m, stall := 0, marker := some m.boundary } :=
  ((Within.flushSchedule _).trans (.refreshRoster _)).ftu

theorem timeOk_adopt {origin : StationId} {m : MarkFields} {s : State} : timeOk (adopt origin m s) :=
  timeOk_of_within (.writeRecord ..)
    ⟨countsOk_of_zero rfl rfl (by simp) (by simp), stallOk_of_zero (by rw [setFtu_ftu, hardSet_ftu])⟩

theorem timeOk_countDiscord {origin : StationId} {m : MarkFields} {s : State} (hs : s.ftu.station = .discord)
    (h : timeOk s) : timeOk (countDiscord origin m s) := by
  unfold countDiscord
  split
  · next hfew =>
    obtain ⟨hholdover, _, _⟩ := h.1
    have hcount : (s.ftu.discordCount + 1).toNat = s.ftu.discordCount.toNat + 1 := by
      rw [BitVec.toNat_add, Nat.mod_eq_of_lt (by simp [Config.resyncCount] at hfew ⊢; omega)]; rfl
    refine ⟨⟨hholdover, ⟨fun _ => hs, fun _ h0 => ?_⟩, ?_⟩, h.2⟩
    · rw [setFtu_ftu] at h0
      have hzero : s.ftu.discordCount + 1 = 0 := h0
      rw [hzero] at hcount
      exact nomatch hcount
    · show (s.ftu.discordCount + 1).toNat ≤ 2
      rw [hcount]; exact Nat.le_of_lt_succ hfew
  · refine ⟨countsOk_of_zero rfl rfl (by simp [resync]) (by simp [resync]), stallOk_of_zero ?_⟩
    simp only [resync, setFtu_ftu, writeRecord_ftu, hardSet_ftu]

theorem timeOk_judgeBeforeStall {m : MarkFields} {agingFirst : Bool} {s : State} (h : timeOk s) :
    timeOk (judgeBeforeStall m agingFirst s) := by
  unfold judgeBeforeStall
  split
  · refine timeOk_takeMidEpoch ?_
    split <;> exact h
  · exact h

theorem timeOk_boundaryOfSpell {m : MarkFields} {s : State} (h : timeOk s) : timeOk (boundaryOfSpell m s) := by
  unfold boundaryOfSpell
  split
  · exact timeOk_takeBoundary h
  · exact h

theorem timeOk_beforeMark {m : MarkFields} {order : MarkOrder} {s : State} (h : timeOk s) :
    timeOk (beforeMark m order s) := by
  unfold beforeMark
  split
  · exact timeOk_settle h
  · split
    · exact timeOk_judgeBeforeStall (timeOk_boundaryOfSpell h)
    · exact timeOk_boundaryOfSpell h

theorem Settles.markOffset {s t : State} (h : Settles s t) (m : MarkFields) : markOffset t m = markOffset s m := by
  unfold Machine.markOffset; rw [h.params, h.time]

theorem Settles.inWindow {s t : State} (h : Settles s t) (m : MarkFields) : inWindow t m = inWindow s m := by
  unfold Machine.inWindow; rw [h.params, h.markOffset]

/-- Only LEAVE, which no mark is, makes a station DETACHED. -/
theorem boundaryOfSpell_of_detached {m : MarkFields} {s : State} (h : s.ftu.station = .detached) :
    boundaryOfSpell m s = s := by
  simp [boundaryOfSpell, endsDiscord, h]

/-- R16: before a mark that begins a stall, the mid-epoch instant that was due has been judged. -/
theorem beforeMark_midDue {m : MarkFields} {order : MarkOrder} {s : State}
    (hjoined : (beforeMark m order s).ftu.station ≠ .detached) (hwindow : inWindow s m = true) (hneg : markOffset s m < 0) :
    (beforeMark m order s).due.midEpoch = false := by
  unfold beforeMark at hjoined ⊢
  split at hjoined
  · next hhard => rw [if_pos hhard]; exact settle_midDue s
  · next hhard =>
    rw [if_neg hhard]
    have hstalls : willStall s m = true := by
      simp only [willStall, hwindow, hneg]
      cases hs : s.ftu.station with
      | detached =>
        split at hjoined
        · next h => simp [willStall, hs] at h
        · rw [boundaryOfSpell_of_detached hs] at hjoined; exact absurd hs hjoined
      | listening => simp [hardSets, hs] at hhard
      | synced | holdover | discord => rfl
    rw [if_pos hstalls]
    unfold judgeBeforeStall
    split
    · exact takeMidEpoch_midDue ..
    · next h => simpa using h

theorem timeOk_ftuTakesMark {origin : StationId} {m : MarkFields} {order : MarkOrder} {s : State} (h : timeOk s) :
    timeOk (ftuTakesMark origin m order s) := by
  have hbefore := Settles.beforeMark m order s
  have hok : timeOk (beforeMark m order s) := timeOk_beforeMark h
  have hmid (hj : (beforeMark m order s).ftu.station ≠ .detached) (hw : inWindow (beforeMark m order s) m = true)
      (hneg : markOffset (beforeMark m order s) m < 0) : (beforeMark m order s).due.midEpoch = false :=
    beforeMark_midDue hj (by rwa [← hbefore.inWindow]) (by rwa [← hbefore.markOffset])
  unfold ftuTakesMark
  dsimp only
  split
  · exact hok
  · exact timeOk_adopt
  · next hs =>
    split
    · next hw => exact timeOk_followMark (.inl hs) hw (hmid (by simp [hs]) hw) hok
    · exact timeOk_enterDiscord
  · next hs =>
    split
    · next hw => exact timeOk_followMark (.inr hs) hw (hmid (by simp [hs]) hw) hok
    · exact timeOk_enterDiscord
  · next hs =>
    split
    · next hw => exact timeOk_endDiscord hs hw (hmid (by simp [hs]) hw) hok
    · exact timeOk_countDiscord hs hok

theorem timeOk_takeMark {origin : StationId} {m : MarkFields} {order : MarkOrder} {s : State}
    (hvalid : validOrigin origin = true) (hid : origin ≠ s.params.id) (h : timeOk s) :
    timeOk (takeMark origin m order s) := by
  unfold takeMark
  split
  · exact timeOk_ftuTakesMark (timeOk_of_within (.hearPeer hvalid hid) h)
  · refine timeOk_of_within (.hearPeer hvalid ?_) (timeOk_ftuTakesMark h)
    rwa [(Marks.ftuTakesMark origin m order s).params]

/-! ### Every step keeps them -/

theorem beginAttempt_ftu (o : Offer) (s : State) :
    (beginAttempt o s).ftu = s.ftu ∧ (beginAttempt o s).due = s.due := by
  unfold beginAttempt
  split
  · exact ⟨rfl, rfl⟩
  · dsimp only
    split <;> exact ⟨rfl, rfl⟩
  · exact ⟨rfl, rfl⟩

theorem withdrawSame_due (b : Time) (s : State) : (withdrawSame b s).due = s.due := by
  unfold withdrawSame; repeat' split
  all_goals rfl

theorem attemptOffer_ftu (s : State) : (attemptOffer s).ftu = s.ftu ∧ (attemptOffer s).due = s.due := by
  unfold attemptOffer
  split
  · exact ⟨rfl, rfl⟩
  · next b _ =>
    split
    · exact beginAttempt_ftu _ s
    · have hftu := withdrawSame_ftu b s
      have hdue := withdrawSame_due b s
      dsimp only
      split
      · exact ⟨(beginAttempt_ftu ..).1.trans hftu, (beginAttempt_ftu ..).2.trans hdue⟩
      · exact ⟨hftu, hdue⟩
  · exact beginAttempt_ftu _ s
  · exact beginAttempt_ftu _ s

theorem timeOk_completeAttempt {a : Attempt} {s : State} (h : timeOk s) : timeOk (completeAttempt a s) := by
  unfold completeAttempt
  split
  · have hslot (t : State) (ht : t = s ∨ t = { s with pub := { s.pub with markSlot := none } }) :
        timeOk (ownMarkCompleted a t) := by
      unfold ownMarkCompleted
      split
      · split <;> rcases ht with rfl | rfl <;> exact h
      all_goals rcases ht with rfl | rfl <;> exact h
    split
    · exact hslot _ (.inr rfl)
    · exact hslot _ (.inl rfl)
  · split <;> exact h
  · split <;> exact h

theorem timeOk_work {c : Instr} {s : State} (hc : reconfigures c = false) (h : timeOk s) : timeOk (runCommand s c) := by
  cases hf : reachesFtu c with
  | false => exact timeOk_of_within (within_runCommand s hc hf) h
  | true =>
    cases c with
    | boundaryReached => exact timeOk_takeBoundary h
    | lineUnmute => exact timeOk_of_works (Reaches.takeUnmute s).toWorks (takeUnmute_ftu s) h
    | midEpochInstant rosterFirst => exact timeOk_takeMidEpoch h
    | listenEnd => exact timeOk_takeListenEnd h
    | completed =>
      show timeOk (match s.liu.attempt with | none => s | some a => _)
      split
      · exact h
      · split
        · exact timeOk_completeAttempt h
        · exact h
    | markArrival origin m order =>
      show timeOk (deliver ⟨origin, .mark m⟩ ownIdFrame (takeMark origin m order) s)
      obtain e | e | e | ⟨hvalid, hid, e⟩ := deliver_cases ⟨origin, .mark m⟩ ownIdFrame (takeMark origin m order) s <;>
        rw [e]
      · exact h
      · exact h
      · exact h
      · exact timeOk_takeMark hvalid hid h
    | transmissionAttempt =>
      show timeOk (if canAttempt s then attemptOffer s else s)
      split
      · next hcan =>
        obtain ⟨hftu, hdue⟩ := attemptOffer_ftu s
        exact timeOk_of_ftu hftu (Keeps.attemptOffer (maySend_of_canAttempt hcan)).params (by rw [hdue]; exact id) h
      · exact h
    | fabricTick order =>
      show timeOk (if joined s ∧ s.ftu.stall = 0 then fabricTick order (settle s) else s)
      split
      · next hcan => exact timeOk_fabricTick ((Settles.settle s).stall.trans hcan.2) (timeOk_settle h)
      · exact h
    | swallowedTick =>
      show timeOk (if joined s ∧ s.ftu.stall ≠ 0 then swallowedTick (settle s) else s)
      split
      · next hcan =>
        exact timeOk_swallowedTick (by rw [(Settles.settle s).stall]; exact hcan.2) (timeOk_settle h)
      · exact h
    | _ => exact nomatch hf

theorem timeOk_runCommand (s : State) (c : Instr) (h : timeOk s) : timeOk (runCommand s c) :=
  runCommand_keeps (P := timeOk) (fun _ _ h => h) (fun _ _ hc h => timeOk_work hc h) (fun _ _ _ _ _ h => h)
    (fun _ _ _ _ => ⟨countsOk_of_zero rfl rfl nofun nofun, stallOk_of_zero rfl⟩)
    (fun _ _ _ => ⟨countsOk_of_zero rfl rfl nofun nofun, stallOk_of_zero rfl⟩) (fun _ _ h => h)
    (fun _ _ => ⟨countsOk_of_zero rfl rfl nofun nofun, stallOk_of_zero rfl⟩) s c h

/-- Settles O4: the counts change with the station state, and a stall remainder is set in SYNCED alone, after the
mid-epoch instant that was due. -/
theorem stepKeepsTimeItems : Obligations.StepKeepsTimeItems := fun _ _ h hstep =>
  step_keeps (P := timeOk) (fun _ _ h => h) timeOk_runCommand h hstep

/-- Settles O10: at the start-up values every list is empty, every count 0 and every channel DISABLED. -/
theorem resetHasInvariants : Obligations.ResetHasInvariants := by
  have hlow (s : State) : recordsOk (resetLowState s) ∧ imageOk (resetLowState s) ∧ countsOk (resetLowState s) ∧
      stallOk (resetLowState s) ∧ rosterOk (resetLowState s) ∧ scheduleOk (resetLowState s) ∧
      queueOk (resetLowState s) ∧ muteOk (resetLowState s) ∧ faultsOk (resetLowState s) ∧
      channelsOk (resetLowState s) ∧ detachedOk (resetLowState s) := by
    obtain ⟨hqueue, hmute, hfaults⟩ := publishingOk_reset s
    exact ⟨⟨Nat.zero_le _, fun h => absurd rfl h⟩, memoryWf_reset, countsOk_of_zero rfl rfl nofun nofun,
      stallOk_of_zero rfl, rosterOk_nil rfl, scheduleOk_nil rfl, hqueue, hmute, hfaults, channelsOk_reset s,
      detachedOk_reset s⟩
  refine ⟨fun s t hexec => ?_, hlow State.reset⟩
  obtain rfl := exec_next_iff.1 hexec
  exact hlow s

end Sys2Proof.Machine
end

section
/-! The means by which fabric time moves (R1), and the own sequence (R153). -/

namespace Sys2Proof.Machine

-- Proofs elaborated side by side need more threads than the memory limit of the check holds.
set_option Elab.async false

/-! ### Fabric time at a mark (R11, R15) -/

/-- What a mark may make of T: it stays, moves by a forward step within W, or is set to the mark's reference. -/
def MarkMoves (m : MarkFields) (s t : State) : Prop :=
  t.ftu.time = s.ftu.time ∨
    (∃ d, 1 ≤ d ∧ d ≤ s.params.window.toNat ∧ t.ftu.time = s.ftu.time + BitVec.ofNat 32 d) ∨
    ((s.ftu.station = .listening ∨ s.ftu.station = .discord) ∧ t.ftu.time = markReference s.params m ∧
      t.ftu.station = .synced ∧ t.ftu.stall = 0 ∧ t.ftu.marker = some m.boundary ∧ t.schedule = [])

/-- What comes before the mark's own part leaves T, W and the mark latency, and begins no LISTENING or DISCORD. -/
theorem MarkMoves.after {m : MarkFields} {s t u : State} (hsettles : Settles s t) (h : MarkMoves m t u) :
    MarkMoves m s u := by
  unfold MarkMoves at *
  rw [hsettles.time, hsettles.params] at h
  exact h.imp_right (Or.imp_right fun ⟨hs, hrest⟩ => ⟨hs.imp hsettles.listening hsettles.discord, hrest⟩)

/-- What comes after the mark's own part leaves the FTU and the schedule. -/
theorem MarkMoves.before {m : MarkFields} {s t u : State} (h : MarkMoves m s t) (hftu : u.ftu = t.ftu)
    (hschedule : u.schedule = t.schedule) : MarkMoves m s u := by
  unfold MarkMoves at *
  rwa [hftu, hschedule]

/-- R15: a step is made for a mark ahead of T alone, by the mark's offset. -/
theorem MarkMoves.followOffset {m : MarkFields} {d : Int} {order : MarkOrder} {s t : State}
    (htime : t.ftu.time = s.ftu.time) (hd : d ≤ s.params.window.toNat) : MarkMoves m s (followOffset d order t) := by
  unfold Machine.followOffset
  dsimp only
  split
  · refine .inr (.inl ⟨d.natAbs, by omega, by omega, ?_⟩)
    rw [forwardStep_time, setFtu_ftu, htime]
  · exact .inl htime

theorem leaveHoldover_time (origin : StationId) (s : State) : (leaveHoldover origin s).ftu.time = s.ftu.time := by
  unfold leaveHoldover
  split
  · simp
  · rfl

theorem MarkMoves.followMark {origin : StationId} {m : MarkFields} {order : MarkOrder} {s : State}
    (hwindow : inWindow s m = true) : MarkMoves m s (followMark origin m order s) := by
  refine .followOffset ?_ ((inWindow_iff s m).1 hwindow).2
  rw [withdrawSame_ftu, leaveHoldover_time]
  rfl

theorem MarkMoves.endDiscord {origin : StationId} {m : MarkFields} {order : MarkOrder} {s : State}
    (hwindow : inWindow s m = true) : MarkMoves m s (endDiscord origin m order s) :=
  .followOffset (by simp) ((inWindow_iff s m).1 hwindow).2

theorem MarkMoves.enterDiscord (origin : StationId) (m : MarkFields) (s : State) :
    MarkMoves m s (enterDiscord origin m s) := by
  refine .inl ?_
  unfold Machine.enterDiscord withdrawMark orphanAttempt
  simp

theorem hardSet_schedule (m : MarkFields) (s : State) : (hardSet m s).schedule = [] := flushSchedule_schedule _

theorem MarkMoves.adopt {origin : StationId} {m : MarkFields} {s : State} (hs : s.ftu.station = .listening) :
    MarkMoves m s (adopt origin m s) :=
  .inr (.inr ⟨.inl hs, by simp [Machine.adopt, hardSet_ftu, hardSet_schedule]⟩)

theorem MarkMoves.countDiscord {origin : StationId} {m : MarkFields} {s : State} (hs : s.ftu.station = .discord) :
    MarkMoves m s (countDiscord origin m s) := by
  unfold Machine.countDiscord
  split
  · exact .inl rfl
  · exact .inr (.inr ⟨.inr hs, by simp [resync, hardSet_ftu, hardSet_schedule]⟩)

theorem MarkMoves.ftuTakesMark (origin : StationId) (m : MarkFields) (order : MarkOrder) (s : State) :
    MarkMoves m s (ftuTakesMark origin m order s) := by
  refine .after (Settles.beforeMark m order s) ?_
  unfold Machine.ftuTakesMark
  generalize beforeMark m order s = v
  dsimp only
  split
  · exact .inl rfl
  · next hs => exact .adopt hs
  · split
    · next hw => exact .followMark hw
    · exact .enterDiscord ..
  · split
    · next hw => exact .followMark hw
    · exact .enterDiscord ..
  · next hs =>
    split
    · next hw => exact .endDiscord hw
    · exact .countDiscord hs

/-- R46, R47: the upkeep reaches the roster and the record queue. -/
theorem hearPeer_frame (origin : StationId) (s : State) :
    hearPeer origin s = { s with roster := (hearPeer origin s).roster, log := (hearPeer origin s).log } := by
  unfold hearPeer
  dsimp only
  split
  · rfl
  · split
    · rw [writeRecord_eq]
    · rfl

theorem hearPeer_ftu (origin : StationId) (s : State) : (hearPeer origin s).ftu = s.ftu := by rw [hearPeer_frame]

theorem hearPeer_params (origin : StationId) (s : State) : (hearPeer origin s).params = s.params := by rw [hearPeer_frame]

theorem hearPeer_schedule (origin : StationId) (s : State) : (hearPeer origin s).schedule = s.schedule := by
  rw [hearPeer_frame]

theorem MarkMoves.takeMark (origin : StationId) (m : MarkFields) (order : MarkOrder) (s : State) :
    MarkMoves m s (takeMark origin m order s) := by
  unfold Machine.takeMark
  split
  · have h := MarkMoves.ftuTakesMark origin m order (hearPeer origin s)
    unfold MarkMoves at *
    rwa [hearPeer_ftu, hearPeer_params] at h
  · exact (MarkMoves.ftuTakesMark origin m order s).before (hearPeer_ftu ..) (hearPeer_schedule ..)

/-! ### Fabric time at the other commands (R1) -/

theorem completeAttempt_time (a : Attempt) (s : State) : (completeAttempt a s).ftu.time = s.ftu.time := by
  have hown (t : State) : (ownMarkCompleted a t).ftu.time = t.ftu.time := by
    unfold ownMarkCompleted; repeat' split
    all_goals rfl
  unfold completeAttempt
  split
  · rw [hown]; split <;> rfl
  · split <;> rfl
  · split <;> rfl

theorem runCommand_completed_time (s : State) : (runCommand s .completed).ftu.time = s.ftu.time := by
  show (match s.liu.attempt with
    | none => s
    | some a => if s.liu.tx = TxState.body then completeAttempt a (frameEnds (attemptOver s)) else s).ftu.time = _
  split
  · rfl
  · split
    · exact completeAttempt_time ..
    · rfl

theorem runCommand_markArrival_moves (origin : StationId) (m : MarkFields) (order : MarkOrder) (s : State) :
    MarkMoves m s (runCommand s (.markArrival origin m order)) := by
  show MarkMoves m s (deliver ⟨origin, .mark m⟩ ownIdFrame (takeMark origin m order) s)
  obtain h | h | h | ⟨-, -, h⟩ := deliver_cases ⟨origin, .mark m⟩ ownIdFrame (takeMark origin m order) s <;> rw [h]
  · exact .inl rfl
  · exact .inl rfl
  · exact .inl rfl
  · exact MarkMoves.takeMark origin m order (frameReceived s)

/-- R1, R8: the commands that reconfigure leave T, but for COMMIT in DETACHED and RESET. -/
theorem reconfigures_time {c : Instr} (s : State) (hc : reconfigures c = true) :
    (runCommand s c).ftu.time = s.ftu.time ∨ (joined s = false ∧ c = .commit ∧ (runCommand s c).ftu.time = 0) ∨
      (c = .startUpReset ∧ (runCommand s c).ftu.time = 0) := by
  cases c with
  | writeImage offset length data =>
    obtain ⟨p, h | ⟨-, -, h⟩⟩ := runCommand_writeImage offset length data s <;> exact .inl (by rw [h])
  | commit =>
    obtain ⟨p, h | ⟨hjoined, -, h⟩⟩ := runCommand_commit s
    · exact .inl (by rw [h])
    · exact .inr (.inl ⟨hjoined, rfl, by rw [h]; rfl⟩)
  | leave =>
    obtain ⟨p, h | ⟨-, h⟩⟩ := runCommand_leave s
    · exact .inl (by rw [h])
    · refine .inl ?_
      rw [h]
      show (releaseDue s).ftu.time = _
      rw [(Within.releaseDue s).ftu]
  | recordRemoved =>
    obtain h | ⟨-, h⟩ := runCommand_recordRemoved s
    · exact .inl (by rw [h])
    · exact .inl (by rw [h]; rfl)
  | startUpReset => exact .inr (.inr ⟨rfl, rfl⟩)
  | _ => exact nomatch hc

theorem runCommand_fabricTick (order : TickOrder) (s : State) :
    runCommand s (.fabricTick order) = if joined s ∧ s.ftu.stall = 0 then fabricTick order (settle s) else s := rfl

theorem runCommand_swallowedTick (s : State) :
    runCommand s .swallowedTick = if joined s ∧ s.ftu.stall ≠ 0 then swallowedTick (settle s) else s := rfl

theorem fabricTick_time (order : TickOrder) (s : State) : (fabricTick order s).ftu.time = s.ftu.time + 1 := rfl

theorem fabricTick_pub (order : TickOrder) (s : State) : (fabricTick order s).pub = s.pub := rfl

theorem swallowedTick_time (s : State) : (swallowedTick s).ftu.time = s.ftu.time := rfl

theorem swallowedTick_pub (s : State) : (swallowedTick s).pub = s.pub := rfl

/-- R1: of the other commands only a fabric tick and a mark move T. -/
theorem reachesFtu_time {c : Instr} (s : State) (hf : reachesFtu c = true) (hmark : ∀ origin m order, c ≠ .markArrival origin m order) :
    (runCommand s c).ftu.time = s.ftu.time ∨
      (joined s = true ∧ s.ftu.stall = 0 ∧ (∃ order, c = .fabricTick order) ∧
        (runCommand s c).ftu.time = s.ftu.time + 1) := by
  cases c with
  | boundaryReached => exact .inl (Reaches.takeBoundary s).time
  | lineUnmute => exact .inl (Reaches.takeUnmute s).time
  | midEpochInstant rosterFirst => exact .inl (Reaches.takeMidEpoch rosterFirst s).time
  | listenEnd => exact .inl (Reaches.takeListenEnd s).time
  | completed => exact .inl (runCommand_completed_time s)
  | markArrival origin m order => exact absurd rfl (hmark origin m order)
  | transmissionAttempt =>
    refine .inl ?_
    show (if canAttempt s then attemptOffer s else s).ftu.time = _
    split
    · rw [(attemptOffer_ftu s).1]
    · rfl
  | fabricTick order =>
    rw [runCommand_fabricTick]
    split
    · next hcan =>
      refine .inr ⟨hcan.1, hcan.2, ⟨order, rfl⟩, ?_⟩
      rw [fabricTick_time, (Settles.settle s).time]
    · exact .inl rfl
  | swallowedTick =>
    refine .inl ?_
    rw [runCommand_swallowedTick]
    split
    · rw [swallowedTick_time, (Settles.settle s).time]
    · rfl
  | _ => exact nomatch hf

/-- Settles O12: by kind of command; a mark's means come from the branch of its station state. -/
theorem timeMovesOnlyByItsMeans : Obligations.TimeMovesOnlyByItsMeans := by
  intro c s t hexec
  obtain rfl := exec_next_iff.1 hexec
  by_cases hmark : ∃ origin m order, c = .markArrival origin m order
  case pos =>
    obtain ⟨origin, m, order, rfl⟩ := hmark
    cases hjoined : joined s with
    | false => exact .inl (by rw [show runCommand s (.markArrival origin m order) = s from deliver_of_detached hjoined])
    | true =>
      obtain h | ⟨d, hlow, hhigh, h⟩ | ⟨hs, h⟩ := runCommand_markArrival_moves origin m order s
      · exact .inl h
      · exact .inr (.inr (.inl ⟨rfl, origin, m, order, d, rfl, hlow, hhigh, h⟩))
      · exact .inr (.inr (.inr (.inl ⟨hs, origin, m, order, rfl, h⟩)))
  case neg =>
    have hno (origin m order) : c ≠ .markArrival origin m order := fun h => hmark ⟨origin, m, order, h⟩
    cases hc : reconfigures c with
    | true =>
      obtain h | h | h := reconfigures_time s hc
      · exact .inl h
      · exact .inr (.inr (.inr (.inr (.inl h))))
      · exact .inr (.inr (.inr (.inr (.inr h))))
    | false =>
      cases hf : reachesFtu c with
      | false => exact .inl (by rw [(within_runCommand s hc hf).ftu])
      | true => exact (reachesFtu_time s hf hno).imp_right .inl

/-! ### The own sequence (R153) -/

/-- R153: what the attempt of a head entry without a sequence makes of Publishing and the line. -/
def SequenceTaken (s t : State) : Prop :=
  t.pub.ownSequence = s.pub.ownSequence + 1 ∧ t.pub.restartPending = false ∧
    ∃ e es, s.pub.queue = e :: es ∧ e.sequence = none ∧
      t.pub.queue = { e with sequence := some (s.pub.ownSequence + 1), restart := s.pub.restartPending } :: es ∧
      t.liu.tx = .head ∧ ∃ a event, t.liu.attempt = some a ∧ a.item = .event ∧ a.frame.body = .event event ∧
        event.sequence = s.pub.ownSequence + 1 ∧ event.restart = s.pub.restartPending

theorem beginAttempt_sequence (o : Offer) (s : State) :
    (beginAttempt o s).pub.ownSequence = s.pub.ownSequence ∨ SequenceTaken s (beginAttempt o s) := by
  cases o with
  | mark b => exact .inl rfl
  | roll => exact .inl rfl
  | event =>
    cases hq : s.pub.queue with
    | nil => exact .inl (by simp [beginAttempt, assignSequence, hq])
    | cons e es =>
      cases hs : e.sequence with
      | some n => exact .inl (by simp [beginAttempt, assignSequence, hq, hs, startFrame])
      | none =>
        refine .inr ⟨?_, ?_, e, es, hq, hs, ?_, ?_⟩ <;>
          simp [beginAttempt, assignSequence, hq, hs, startFrame, eventOfEntry]

/-- R24: the withdrawal of an aged MARK leaves the queue and the sequence. -/
theorem withdrawSame_queue (b : Time) (s : State) :
    (withdrawSame b s).pub.queue = s.pub.queue ∧ (withdrawSame b s).pub.ownSequence = s.pub.ownSequence ∧
      (withdrawSame b s).pub.restartPending = s.pub.restartPending := by
  unfold withdrawSame; repeat' split
  all_goals exact ⟨rfl, rfl, rfl⟩

theorem attemptOffer_sequence (s : State) :
    (attemptOffer s).pub.ownSequence = s.pub.ownSequence ∨ SequenceTaken s (attemptOffer s) := by
  unfold attemptOffer
  split
  · exact .inl rfl
  · next b _ =>
    split
    · exact beginAttempt_sequence _ s
    · obtain ⟨hqueue, hown, hrestart⟩ := withdrawSame_queue b s
      dsimp only
      split
      · next o _ =>
        have h := beginAttempt_sequence o (setLiu (fun l => { l with offer := none }) (withdrawSame b s))
        unfold SequenceTaken at h
        rwa [setLiu_pub, hqueue, hown, hrestart] at h
      · exact .inl hown
  · exact beginAttempt_sequence _ s
  · exact beginAttempt_sequence _ s

/-- Settles O14: every other command keeps the counter, and an attempt moves it only for a head entry without one. -/
theorem sequenceAssignedAtAttempt : Obligations.SequenceAssignedAtAttempt := by
  intro c s t hexec hreset
  obtain rfl := exec_next_iff.1 hexec
  cases hc : reconfigures c with
  | true =>
    left
    cases c with
    | writeImage offset length data =>
      obtain ⟨p, h | ⟨-, -, h⟩⟩ := runCommand_writeImage offset length data s <;> rw [h]
    | commit => obtain ⟨p, h | ⟨-, -, h⟩⟩ := runCommand_commit s <;> rw [h]; rfl
    | leave =>
      obtain ⟨p, h | ⟨-, h⟩⟩ := runCommand_leave s <;> rw [h]
      exact (Within.releaseDue s).ownSequence
    | recordRemoved => obtain h | ⟨-, h⟩ := runCommand_recordRemoved s <;> rw [h]; rfl
    | startUpReset => exact absurd rfl hreset
    | _ => exact nomatch hc
  | false =>
    cases hs : ticksOrSends c with
    | false => exact .inl (marks_runCommand s hc hs).ownSequence
    | true =>
      cases c with
      | fabricTick order =>
        left
        rw [runCommand_fabricTick]
        split
        · rw [fabricTick_pub, (Settles.settle s).ownSequence]
        · rfl
      | swallowedTick =>
        left
        rw [runCommand_swallowedTick]
        split
        · rw [swallowedTick_pub, (Settles.settle s).ownSequence]
        · rfl
      | transmissionAttempt =>
        show (if canAttempt s then attemptOffer s else s).pub.ownSequence = _ ∨ _ ∧
          SequenceTaken s (if canAttempt s then attemptOffer s else s)
        split
        · exact (attemptOffer_sequence s).imp_right fun h => ⟨rfl, h⟩
        · exact .inl rfl
      | _ => exact nomatch hs

end Sys2Proof.Machine
end

section
/-! Tap instants and samples that are taken leave nothing due, and settling takes all that the instant has left (R4, R84,
R99, R111; log entry 4).
-/

namespace Sys2Proof.Machine

-- Proofs elaborated side by side need more threads than the memory limit of the check holds.
set_option Elab.async false

/-! ### The tap instant (R99) -/

@[simp] theorem channelOf_occur (c : ChannelId) (flag : Bool) (r : Record) (tag : Option Tag) (time : Time)
    (value : Option Half) (s : State) (d : ChannelId) : channelOf (occur c flag r tag time value s).1 d = channelOf s d := by
  unfold occur
  cases flag <;> simp

theorem tapEvent_of_noTap {c : ChannelId} {s : State} (h : (channelOf s c).tapDue = false) : tapEvent c s = (s, none) := by
  simp [tapEvent, h]

theorem tapEvent_start {c : ChannelId} {s : State} (htap : (channelOf s c).tapDue = true)
    (h : (channelOf s c).state = .starting) : tapEvent c s = startChannel c s := by
  simp [tapEvent, htap, h]

theorem tapEvent_count {c : ChannelId} {s : State} (htap : (channelOf s c).tapDue = true)
    (hstart : (channelOf s c).state ≠ .starting) (h : underflows (channelOf s c) = false) :
    tapEvent c s = (setChannel c (plainCount (tapTaken (channelOf s c))) s, none) := by
  simp [tapEvent, htap, hstart, h]

theorem enterRunning_tapDue (t : Time) (ch : Channel) : (enterRunning t ch).tapDue = ch.tapDue := by
  unfold enterRunning
  split
  case h_7 => split <;> rfl
  all_goals rfl

theorem plainCount_tapDue (ch : Channel) : (plainCount ch).tapDue = ch.tapDue := by
  unfold plainCount
  split
  · rfl
  · split <;> rfl

theorem startChannel_tapDue (c : ChannelId) (s : State) : (channelOf (startChannel c s).1 c).tapDue = false := by
  have hset : (channelOf (setChannel c (enterRunning s.ftu.time (tapTaken (startCounter (channelOf s c)))) s) c).tapDue
      = false := by
    rw [channelOf_setChannel_self, enterRunning_tapDue]; rfl
  unfold startChannel startOccurrence
  dsimp only
  rw [channelOf_occur]
  split
  · split
    · rwa [channelOf_writeRecord]
    · exact hset
  · exact hset

theorem repeatUnderflowOf_tapDue (c : ChannelId) (s : State) :
    (channelOf (repeatUnderflowOf c s).1 c).tapDue = false := by
  unfold repeatUnderflowOf
  dsimp only
  split
  · rw [endOccurrence, channelOf_occur, channelOf_setChannel_self]; rfl
  · rw [channelOf_setChannel_self]; rfl

/-- Whatever a channel makes of its tap instant, it has taken it. -/
theorem tapEvent_tapDue (c : ChannelId) (s : State) : (channelOf (tapEvent c s).1 c).tapDue = false := by
  cases htap : (channelOf s c).tapDue with
  | false => rw [tapEvent_of_noTap htap, htap]
  | true =>
    by_cases hstart : (channelOf s c).state = .starting
    · rw [tapEvent_start htap hstart]; exact startChannel_tapDue c s
    · cases hunder : underflows (channelOf s c) with
      | false => rw [tapEvent_count htap hstart hunder, channelOf_setChannel_self, plainCount_tapDue]; rfl
      | true =>
        unfold tapEvent
        simp only [htap, hstart, hunder, Bool.not_true, Bool.false_eq_true, if_false, if_true]
        split
        · simp [pulseUnderflow, endOccurrence, tapTaken]
        · simp [leadUnderflowOf, tapTaken]
        · exact repeatUnderflowOf_tapDue c s
        · simp [phaseAUnderflowOf, tapTaken]
        · simp [periodBoundaryOf, endOccurrence, takePair_tapDue, tapTaken]
        · simp [qualifiedOf, inputOccurrence, tapTaken]
        all_goals simp [tapTaken]

/-- What publishing an occurrence keeps: it opens no tap instant. -/
theorem Within.publishWhole (x : State × Option Occurrence) : Within x.1 (Machine.publishEvent x) := .publishEvent (.refl _)

theorem tapDue_false_of_works {s t : State} (h : Works s t) {c : ChannelId} (hs : (channelOf s c).tapDue = false) :
    (channelOf t c).tapDue = false :=
  Bool.eq_false_iff.2 fun ht => Bool.false_ne_true (hs.symm.trans ((h.channels c).tapDue ht))

theorem takeTap_tapDue (c : ChannelId) (s : State) : (channelOf (takeTap c s) c).tapDue = false :=
  tapDue_false_of_works (Within.publishWhole (tapEvent c s)).toWorks (tapEvent_tapDue c s)

theorem takeTap_of_noTap {c : ChannelId} {s : State} (h : (channelOf s c).tapDue = false) : takeTap c s = s := by
  rw [takeTap, tapEvent_of_noTap h]; rfl

/-! ### The sample (R111) -/

theorem changeDue_false_of_works {s t : State} (h : Works s t) (hpins : t.pins = s.pins) {c : ChannelId}
    (hs : changeDue s c = false) : changeDue t c = false := by
  refine Bool.eq_false_iff.2 fun ht => Bool.false_ne_true (hs.symm.trans ?_)
  simp only [changeDue, Bool.and_eq_true, pinLevel, hpins] at ht ⊢
  obtain ⟨⟨hmode, hopen⟩, hlevel⟩ := ht
  obtain ⟨hopen', hsampled⟩ := (h.channels c).sample hopen
  rw [(h.channels c).cfg] at hmode
  rw [hsampled] at hlevel
  exact ⟨⟨hmode, hopen'⟩, hlevel⟩

theorem followLevel_sampleOpen (t : Time) (level : Bool) (ch : Channel) :
    (followLevel t level ch).sampleOpen = ch.sampleOpen := by
  unfold followLevel
  repeat' split
  all_goals rfl

/-- An input channel that takes a sample has none open. -/
theorem takeSample_sampleOpen {c : ChannelId} {level : Bool} {s : State} (h : isInputMode (channelOf s c).cfg.mode = true) :
    (channelOf (takeSample c level s).1 c).sampleOpen = false := by
  have hset : (channelOf (setChannel c (recordSample level (channelOf s c)) s) c).sampleOpen = false := by
    rw [channelOf_setChannel_self]; rfl
  have hedge (ch : Channel) (hch : ch.sampleOpen = false) (u : State) (hu : channelOf u c = ch) :
      (channelOf (captureEdge c u).1 c).sampleOpen = false := by
    unfold captureEdge inputOccurrence
    rw [channelOf_occur, channelOf_setChannel_self, hu]
    unfold latchEdge
    dsimp only
    split <;> exact hch
  unfold takeSample
  dsimp only
  split
  · rw [channelOf_setChannel_self, followLevel_sampleOpen]; rfl
  · split
    · exact hedge _ rfl _ (channelOf_setChannel_self ..)
    · exact hset
  · split
    · exact hedge _ rfl _ (channelOf_setChannel_self ..)
    · exact hset
  all_goals next hmode => rw [hmode] at h; exact nomatch h

theorem takeSampleDue_pins (c : ChannelId) (s : State) : (takeSampleDue c s).pins = s.pins :=
  (takeSampleDue_frame c s).still.pins

theorem takeSampleDue_of_noChange {c : ChannelId} {s : State} (h : changeDue s c = false) : takeSampleDue c s = s := by
  rw [takeSampleDue, sampleEvent, if_neg (by simp [h])]; rfl

theorem takeSampleDue_changeDue (c : ChannelId) (s : State) : changeDue (takeSampleDue c s) c = false := by
  cases hdue : changeDue s c with
  | false => rwa [takeSampleDue_of_noChange hdue]
  | true =>
    have hmode : isInputMode (channelOf s c).cfg.mode = true := by
      simp only [changeDue, Bool.and_eq_true] at hdue; exact hdue.1.1
    have hopen : (channelOf (sampleEvent c s).1 c).sampleOpen = false := by
      rw [sampleEvent, if_pos hdue]; exact takeSample_sampleOpen hmode
    have hlater : (channelOf (takeSampleDue c s) c).sampleOpen = false :=
      Bool.eq_false_iff.2 fun h => Bool.false_ne_true
        (hopen.symm.trans (((Within.publishWhole (sampleEvent c s)).channels c).sample h).1)
    simp [changeDue, hlater]

/-! ### A channel settled, and all of them -/

/-- Nothing of the present instant waits at channel c. -/
def ChannelSettled (s : State) (c : ChannelId) : Prop := (channelOf s c).tapDue = false ∧ changeDue s c = false

theorem ChannelSettled.of_works {s t : State} {c : ChannelId} (h : Works s t) (hpins : t.pins = s.pins)
    (hs : ChannelSettled s c) : ChannelSettled t c :=
  ⟨tapDue_false_of_works h hs.1, changeDue_false_of_works h hpins hs.2⟩

theorem settleChannel_settled (c : ChannelId) (s : State) : ChannelSettled (settleChannel s c) c :=
  ⟨tapDue_false_of_works (Within.takeSampleDue c _).toWorks (takeTap_tapDue c s), takeSampleDue_changeDue ..⟩

theorem settleChannel_of_settled {c : ChannelId} {s : State} (h : ChannelSettled s c) : settleChannel s c = s := by
  rw [settleChannel, takeTap_of_noTap h.1, takeSampleDue_of_noChange h.2]

theorem settleChannels_settled {cs : List ChannelId} {c : ChannelId} (s : State) (hc : c ∈ cs ∨ ChannelSettled s c) :
    ChannelSettled (cs.foldl settleChannel s) c := by
  induction cs generalizing s with
  | nil => exact hc.resolve_left List.not_mem_nil
  | cons d cs ih =>
    refine ih _ ?_
    have hkeep (h : ChannelSettled s c) : ChannelSettled (settleChannel s d) c :=
      h.of_works (Within.settleChannel d s).toWorks (settleChannel_frame d s).still.pins
    rcases hc with hc | hc
    · rcases List.mem_cons.1 hc with rfl | hc
      · exact .inr (settleChannel_settled c s)
      · exact .inl hc
    · exact .inr (hkeep hc)

theorem settleChannels_of_settled {cs : List ChannelId} {s : State} (h : ∀ c, ChannelSettled s c) :
    cs.foldl settleChannel s = s := by
  induction cs with
  | nil => rfl
  | cons c cs ih => rw [List.foldl_cons, settleChannel_of_settled (h c), ih]

theorem mem_allChannels (c : ChannelId) : c ∈ allChannels := by
  revert c; decide

/-! ### The blocks settled (R4, R13, R22, R37) -/

theorem takeListenEnd_listenEndDue (s : State) : listenEndDue (takeListenEnd s) = false := by
  unfold takeListenEnd
  split
  · simp [listenEndDue]
  · next h => simpa using h

theorem listenEndDue_false_of_settles {s t : State} (h : Settles s t) (hs : listenEndDue s = false) :
    listenEndDue t = false := by
  refine Bool.eq_false_iff.2 fun ht => Bool.false_ne_true (hs.symm.trans ?_)
  simp only [listenEndDue, Bool.and_eq_true, beq_iff_eq] at ht ⊢
  exact ⟨h.listening ht.1, by rw [← h.time, ← h.listenEnd]; exact ht.2⟩

theorem takeBoundary_ftuDue (s : State) : (takeBoundary s).due.ftuBoundary = false := by
  unfold takeBoundary
  dsimp only
  split
  · exact Bool.eq_false_iff.2 fun h => by
      have hb := ((Reaches.ftuBoundary ..).trans (.takeMuteCount _)).ftuDue h
      exact nomatch hb
  · next h => simpa using h

/-- R37: after the mute count, the LIU's share of a boundary is due only at the last boundary of a mute spell. -/
theorem takeUnmute_liuDue (s : State) : (takeUnmute (takeMuteCount s)).due.liuBoundary = false := by
  have hcount : (takeMuteCount s).due.liuBoundary = false ∨ takeMuteCount s = s ∧ lastMuteBoundary s = true := by
    unfold takeMuteCount
    split
    · exact .inl rfl
    · next h =>
      cases hlast : lastMuteBoundary s with
      | true => exact .inr ⟨rfl, rfl⟩
      | false => left; simpa [hlast] using h
  unfold takeUnmute
  split
  · rfl
  · next h =>
    rcases hcount with hcount | ⟨heq, hlast⟩
    · exact hcount
    · rw [heq] at h ⊢; simpa [hlast] using h

theorem settleBlocks_due (s : State) :
    (settleBlocks s).due.ftuBoundary = false ∧ (settleBlocks s).due.liuBoundary = false ∧
      (settleBlocks s).due.midEpoch = false := by
  refine ⟨Bool.eq_false_iff.2 fun h => ?_, Bool.eq_false_iff.2 fun h => ?_, takeMidEpoch_midDue ..⟩
  · have hb := ((Reaches.takeMuteCount (takeBoundary (takeListenEnd s))).trans
      ((Reaches.takeUnmute _).trans (.takeMidEpoch ..))).ftuDue h
    rw [takeBoundary_ftuDue] at hb
    exact Bool.false_ne_true hb
  · have hl := (Reaches.takeMidEpoch ..).liuDue h
    rw [takeUnmute_liuDue] at hl
    exact Bool.false_ne_true hl

theorem releaseDue_due (s : State) :
    (releaseDue s).due.releasing = [] ∧ (releaseDue s).due.moments = [] := by
  unfold releaseDue
  rw [applyAll_frame]
  exact ⟨rfl, rfl⟩

theorem due_eq_none {d : Due} (hftu : d.ftuBoundary = false) (hliu : d.liuBoundary = false) (hmid : d.midEpoch = false)
    (hreleasing : d.releasing = []) (hmoments : d.moments = []) : d = .none := by
  cases d; simp_all [Due.none]

theorem settle_due (s : State) : (settle s).due = .none := by
  obtain ⟨hftu, hliu, hmid⟩ := settleBlocks_due s
  obtain ⟨hreleasing, hmoments⟩ := releaseDue_due (settleBlocks s)
  have hrest := Within.settleRest s
  have hchannels := Within.settleChannels allChannels (releaseDue (settleBlocks s))
  refine due_eq_none (Bool.eq_false_iff.2 fun h => ?_) (Bool.eq_false_iff.2 fun h => ?_) (Bool.eq_false_iff.2 fun h => ?_)
    ?_ ?_
  · exact Bool.false_ne_true (hftu.symm.trans (hrest.ftuDue h))
  · exact Bool.false_ne_true (hliu.symm.trans (hrest.liuDue h))
  · exact Bool.false_ne_true (hmid.symm.trans (hrest.midDue h))
  · rw [settle_eq]; exact hchannels.releasing hreleasing
  · rw [settle_eq]; exact hchannels.moments hmoments

theorem settle_listenEndDue (s : State) : listenEndDue (settle s) = false := by
  refine listenEndDue_false_of_settles (s := takeListenEnd s) ?_ (takeListenEnd_listenEndDue s)
  have hblocks : Reaches (takeListenEnd s) (settleBlocks s) :=
    (Reaches.takeBoundary _).trans ((Reaches.takeMuteCount _).trans ((Reaches.takeUnmute _).trans (.takeMidEpoch ..)))
  exact hblocks.settles.trans (Within.settleRest s).settles

/-- R4: settling leaves nothing of the present instant. -/
theorem settled_settle (s : State) : settled (settle s) := by
  refine ⟨settle_due s, settle_listenEndDue s, fun c => ?_⟩
  rw [settle_eq]
  exact settleChannels_settled _ (.inl (mem_allChannels c))

theorem takeListenEnd_of_notDue {s : State} (h : listenEndDue s = false) : takeListenEnd s = s := by
  rw [takeListenEnd, if_neg (by simp [h])]

theorem settleBlocks_of_none {s : State} (hdue : s.due = .none) (hlisten : listenEndDue s = false) : settleBlocks s = s := by
  have hboundary : takeBoundary s = s := by rw [takeBoundary, hdue]; rfl
  have hcount : takeMuteCount s = s := by rw [takeMuteCount, hdue]; rfl
  have hunmute : takeUnmute s = s := by rw [takeUnmute, hdue]; rfl
  have hmid : takeMidEpoch false s = s := by rw [takeMidEpoch, hdue]; rfl
  rw [settleBlocks, takeListenEnd_of_notDue hlisten, hboundary, hcount, hunmute, hmid]

/-- Where nothing is left, settling takes nothing. -/
theorem settle_of_settled {s : State} (h : settled s) : settle s = s := by
  obtain ⟨hdue, hlisten, hchannels⟩ := h
  rw [settle_eq, settleBlocks_of_none hdue hlisten, releaseDue_of_none hdue, settleChannels_of_settled hchannels]

theorem settle_settle (s : State) : settle (settle s) = settle s := settle_of_settled (settled_settle s)

/-! ### A pin driven from outside (R111) -/

/-- Driving a pin changes its level and no other. -/
theorem drivePin_getLsbD (c i : ChannelId) (level : Bool) (s : State) :
    (drivePin c level s).pins.getLsbD i.val = if i = c then level else s.pins.getLsbD i.val := by
  have hc := c.isLt
  have hi := i.isLt
  by_cases h : i = c
  · subst h
    cases level <;> simp [drivePin]
  · have hne : (i : Nat) ≠ c := fun e => h (Fin.ext e)
    have hbit : (1#8 <<< c.val).getLsbD i.val = false := by
      simp only [BitVec.getLsbD_shiftLeft, BitVec.getLsbD_one]
      by_cases hlt : (i : Nat) < c
      · simp [hlt]
      · have hpos : (i : Nat) - c ≠ 0 := by omega
        simp [hpos]
    cases level <;>
      simp only [drivePin, BitVec.getLsbD_or, BitVec.getLsbD_and, BitVec.getLsbD_not, hbit, h, hi, if_false, if_true,
        decide_true, Bool.not_false, Bool.and_true, Bool.or_false, Bool.false_eq_true]

/-- A pin driven at the level that it has stays as it is. -/
theorem drivePin_pinLevel (c : ChannelId) (s : State) : drivePin c (pinLevel s c) s = s := by
  have hpins : (drivePin c (pinLevel s c) s).pins = s.pins := by
    refine BitVec.eq_of_getLsbD_eq fun i hi => ?_
    have h := drivePin_getLsbD c ⟨i, hi⟩ (pinLevel s c) s
    rw [h]
    split
    · next hic => rw [← hic]; rfl
    · rfl
  have hframe : drivePin c (pinLevel s c) s = { s with pins := (drivePin c (pinLevel s c) s).pins } := rfl
  rw [hframe, hpins]

/-! ### The rows of the tap instants -/

theorem tapEventIn_eq {c : ChannelId} {mode : Mode} {state : ChannelState} {s : State}
    (hmode : (channelOf s c).cfg.mode = mode) (hstate : (channelOf s c).state = state) :
    tapEventIn c mode state s = tapEvent c s := by
  cases htap : (channelOf s c).tapDue with
  | false => rw [tapEventIn_of_noTap _ _ htap, tapEvent_of_noTap htap]
  | true => simp [tapEventIn, tapDueIn, htap, hmode, hstate]

theorem startEvent_eq {c : ChannelId} {s : State}
    (h : (channelOf s c).state = .starting ∨ (channelOf s c).state = .counting) : startEvent c s = tapEvent c s := by
  cases htap : (channelOf s c).tapDue with
  | false => rw [startEvent_of_noTap htap, tapEvent_of_noTap htap]
  | true => rw [startEvent, if_pos ⟨htap, h⟩]

/-- The modes and states of the seven rows of underflows, and what each row does. -/
theorem exec_underflowRow {c : ChannelId} {x : Mode × ChannelState × Instr}
    (hx : x ∈ [(.oneShot, .active, .oneShotUnderflow c), (.delayed, .lead, .leadUnderflow c),
      (.delayed, .active, .delayedActiveUnderflow c), (.repeating, .running, .repeatUnderflow c),
      (.paired, .phaseA, .phaseAUnderflow c), (.paired, .phaseB, .periodBoundary c),
      (.qualify, .qualifying, .qualified c)]) (s : State) :
    exec x.2.2 s = .next (takeEventOf c (tapEventIn c x.1 x.2.1) s) := by
  simp only [List.mem_cons, List.not_mem_nil, or_false] at hx
  obtain rfl | rfl | rfl | rfl | rfl | rfl | rfl := hx <;> rfl

/-- R37: the mute count leaves the LIU's share of a boundary untaken only at the last boundary of a spell. -/
theorem takeMuteCount_cases (s : State) :
    let counted := { s with due := { s.due with liuBoundary := false } }
    (s.due.liuBoundary = false ∨ s.liu.muted = true ∧ s.liu.muteLeft.toNat ≤ 1 → takeMuteCount s = s) ∧
    (s.due.liuBoundary = true → s.liu.muted = false → takeMuteCount s = counted) ∧
    (s.due.liuBoundary = true → s.liu.muted = true → 2 ≤ s.liu.muteLeft.toNat →
      takeMuteCount s = { counted with liu := { s.liu with muteLeft := s.liu.muteLeft - 1 } }) := by
  refine ⟨fun h => if_neg ?_, fun hdue hmuted => ?_, fun hdue hmuted hleft => ?_⟩
  · rcases h with h | ⟨hmuted, hleft⟩
    · simp [h]
    · simp [lastMuteBoundary, hmuted, hleft]
  · have hlast : lastMuteBoundary s = false := by simp [lastMuteBoundary, hmuted]
    rw [takeMuteCount, muteBoundary]
    simp [hdue, hlast, hmuted, liuBoundaryTaken]
  · have hlast : lastMuteBoundary s = false := by simp [lastMuteBoundary, hmuted]; omega
    rw [takeMuteCount, muteBoundary]
    simp [hdue, hlast, hmuted, liuBoundaryTaken, countMute]

/-- Settles O29: each block's part leaves nothing of its own due and no later part makes any due again. -/
theorem settleIsComplete : Obligations.SettleIsComplete := by
  refine ⟨fun s => ⟨settled_settle s, settle_of_settled⟩, fun s => rfl, fun s => ?_, fun c s hreleasing => ?_⟩
  · refine ⟨rfl, rfl, rfl, rfl, fun h => ?_, takeMuteCount_cases s⟩
    rw [← releaseAmong_nil s h]; rfl
  · refine ⟨fun h => ?_, fun x hx hmode hstate => ?_, fun h htap => ?_, fun hjoined => ?_⟩
    · show Host.Outcome.next (takeEventOf c (startEvent c) s) = _
      rw [takeEventOf_eq c _ s hreleasing, startEvent_eq h]; rfl
    · rw [exec_underflowRow hx, takeEventOf_eq c _ s hreleasing, tapEventIn_eq hmode hstate]; rfl
    · simp only [List.mem_cons, List.not_mem_nil, or_false] at h
      have hstart : (channelOf s c).state ≠ .starting := by rintro hs; simp [hs] at h
      have hdown : countsDown (channelOf s c).state = false := by
        rcases h with hs | hs | hs | hs <;> rw [hs] <;> rfl
      have hcounting : (channelOf s c).state ≠ .counting := by rintro hs; simp [hs] at h
      have hplain : plainCount (tapTaken (channelOf s c)) = tapTaken (channelOf s c) := by
        simp [plainCount, tapTaken, hdown, hcounting]
      rw [takeTap, tapEvent_count htap hstart (by simp [underflows, hdown]), hplain]
      rfl
    · show Host.Outcome.next (takeEventOf c (pinEvent c (pinLevel s c)) s) = _
      rw [takeEventOf_eq c _ s hreleasing, pinEvent, if_pos hjoined, drivePin_pinLevel]
      rfl

end Sys2Proof.Machine
end

section
/-! Ticks, boundaries, mid-epoch instants and forward steps: what each does, field by field (R1, R4, R13, R15, R20 to R22,
R37, R48, R50, R85).
-/

namespace Sys2Proof.Machine

-- Proofs elaborated side by side need more threads than the memory limit of the check holds.
set_option Elab.async false

/-! ### The local ticks (R1) -/

/-- R1, R84: with nothing left of the last instant, a fabric tick puts what it reaches in the place of it. -/
theorem fabricTick_of_none {order : TickOrder} {u : State} (h : u.due = .none) :
    fabricTick order u =
      let t := u.ftu.time + 1
      { u with
        ftu := { u.ftu with time := t }
        schedule := u.schedule.filter fun a => a.due != t
        channels := Vector.ofFn fun c => tickChannel t (order.late.getLsbD c.val) (u.pins.getLsbD c.val) (channelOf u c)
        due := { ftuBoundary := isBoundary u.params.k t, liuBoundary := isBoundary u.params.k t,
                 midEpoch := isMidEpoch u.params.k t, releasing := u.schedule.filter fun a => a.due == t,
                 moments := order.moments } } := by
  unfold fabricTick leaveList
  rw [h]
  rfl

theorem exec_fabricTick (order : TickOrder) (s : State) :
    exec (.fabricTick order) s = .next (if joined s ∧ s.ftu.stall = 0 then fabricTick order (settle s) else s) := rfl

theorem exec_swallowedTick (s : State) :
    exec .swallowedTick s = .next (if joined s ∧ s.ftu.stall ≠ 0 then swallowedTick (settle s) else s) := rfl

/-- R111: a swallowed tick lets an input channel sample, and reaches no other channel. -/
theorem swallowChannel_eq (t : Time) (pin : Bool) (ch : Channel) :
    swallowChannel t pin ch =
      if isInputMode ch.cfg.mode = false then ch
      else if ch.sampled.isSome then { ch with sampleOpen := true }
      else followLevel t pin (recordSample pin ch) := by
  unfold swallowChannel
  cases isInputMode ch.cfg.mode <;> cases ch.sampled <;> rfl

/-- Settles O28: a settled instant has nothing due, so what the tick reaches stands alone. -/
theorem localTicks : Obligations.LocalTicks := by
  refine ⟨fun order s => ⟨fun hjoined hstall => ?_, fun h => ?_⟩, fun s => ⟨fun hjoined hstall => ?_, fun h => ?_⟩⟩
  · have hstill := settle_still s
    have hdue := settle_due s
    rw [exec_fabricTick, if_pos ⟨hjoined, hstall⟩]
    generalize settle s = u at *
    rw [fabricTick_of_none hdue, ← hstill.time, ← hstill.params, ← hstill.pins]
    rfl
  · rw [exec_fabricTick, if_neg]
    rintro ⟨hjoined, hstall⟩
    rcases h with h | h
    · exact Bool.false_ne_true (h.symm.trans hjoined)
    · exact h hstall
  · have hstill := settle_still s
    rw [exec_swallowedTick, if_pos ⟨hjoined, hstall⟩]
    unfold swallowedTick pinLevel
    simp only [swallowChannel_eq, hstill.time, hstill.pins]
  · rw [exec_swallowedTick, if_neg]
    rintro ⟨hjoined, hstall⟩
    rcases h with h | h
    · exact Bool.false_ne_true (h.symm.trans hjoined)
    · exact hstall h

/-! ### The listen end and the mute spell (R13, R37) -/

theorem endMute_eq (s : State) : endMute s = writeRecord { kind := .lineUnmute, time := s.ftu.time } { s with
    liu := { s.liu with muted := false, muteLeft := 0 }
    pub := { s.pub with queue := s.pub.queue.map fun e => if 8 ≤ e.faults then { e with faults := 0 } else e } } := rfl

theorem lastMuteBoundary_iff (s : State) :
    lastMuteBoundary s = true ↔ s.liu.muted = true ∧ s.liu.muteLeft.toNat ≤ 1 := by simp [lastMuteBoundary]

theorem lastMuteBoundary_eq_false {s : State} (h : s.liu.muted = false ∨ 2 ≤ s.liu.muteLeft.toNat) :
    lastMuteBoundary s = false := by
  refine Bool.eq_false_iff.2 fun hlast => ?_
  obtain ⟨hmuted, hleft⟩ := (lastMuteBoundary_iff s).1 hlast
  rcases h with h | h
  · exact Bool.false_ne_true (h.symm.trans hmuted)
  · omega

theorem takeUnmute_last {s : State} (hdue : s.due.liuBoundary = true) (hmuted : s.liu.muted = true)
    (hleft : s.liu.muteLeft.toNat ≤ 1) :
    takeUnmute s = { endMute s with due := { s.due with liuBoundary := false } } := by
  rw [takeUnmute, (lastMuteBoundary_iff s).2 ⟨hmuted, hleft⟩, hdue, Bool.and_self, if_pos rfl, liuBoundaryTaken, endMute_eq,
    writeRecord_due]

theorem listenEndDue_iff (s : State) :
    listenEndDue s = true ↔ s.ftu.station = .listening ∧ s.ftu.time = s.ftu.listenEnd := by simp [listenEndDue]

theorem listenEndDue_eq_false {s : State} (h : ¬ (s.ftu.station = .listening ∧ s.ftu.time = s.ftu.listenEnd)) :
    listenEndDue s = false := Bool.eq_false_iff.2 fun hdue => h ((listenEndDue_iff s).1 hdue)

theorem takeListenEnd_of_due {s : State} (h : listenEndDue s = true) :
    takeListenEnd s = writeRecord { kind := .synced, time := s.ftu.time }
      { s with ftu := { s.ftu with station := .synced } } := by rw [takeListenEnd, if_pos h]; rfl

/-- Settles O31: the conditions of the two rows. -/
theorem listenEndAndUnmute : Obligations.ListenEndAndUnmute := by
  refine ⟨fun s hdue => ⟨fun hmuted hleft => ?_, fun h => ?_⟩, fun s => ⟨fun hstation htime => ?_, fun h => ?_⟩⟩
  · show Host.Outcome.next (takeUnmute s) = _
    rw [takeUnmute_last hdue hmuted hleft, endMute_eq]
  · show Host.Outcome.next (takeUnmute s) = _
    rw [takeUnmute, if_neg]
    simp [lastMuteBoundary_eq_false h]
  · show Host.Outcome.next (takeListenEnd s) = _
    rw [takeListenEnd_of_due ((listenEndDue_iff s).2 ⟨hstation, htime⟩)]
  · show Host.Outcome.next (takeListenEnd s) = _
    rw [takeListenEnd_of_notDue (listenEndDue_eq_false fun hboth => ?_)]
    exact h.elim (fun h => h hboth.1) fun h => h hboth.2

/-! ### Boundaries (R22) -/

/-- The attempt's MARK is no longer the pending one. -/
theorem orphan_orphan (item : TxItem) (o : Option Attempt) :
    (o.map fun a => if a.item = item then { a with pending := false } else a).map
      (fun a => if a.item = item then { a with pending := false } else a) =
    o.map fun a => if a.item = item then { a with pending := false } else a := by
  cases o with
  | none => rfl
  | some a => by_cases h : a.item = item <;> simp [h]

theorem withdrawMark_eq (s : State) : withdrawMark s = { s with
    pub := { s.pub with markSlot := none }
    liu := { s.liu with attempt := s.liu.attempt.map fun a =>
      if a.item = .mark then { a with pending := false } else a } } := rfl

theorem raiseMark_withdrawMark (b : Time) (s : State) : raiseMark b (withdrawMark s) = raiseMark b s := by
  unfold raiseMark withdrawMark orphanAttempt
  dsimp only
  rw [orphan_orphan]

theorem withdrawEarlier_none {b : Time} {s : State} (h : s.pub.markSlot = none) : withdrawEarlier b s = s := by
  simp [withdrawEarlier, h]

theorem withdrawEarlier_later {b : Time} {s : State} {r : MarkRequest} (h : s.pub.markSlot = some r)
    (hlater : 0 ≤ signedDifference r.boundary b) : withdrawEarlier b s = s := by
  simp only [withdrawEarlier, h, if_neg (Int.not_lt.2 hlater)]

theorem withdrawEarlier_earlier {b : Time} {s : State} {r : MarkRequest} (h : s.pub.markSlot = some r)
    (hearlier : signedDifference r.boundary b < 0) : withdrawEarlier b s = withdrawMark s := by
  simp only [withdrawEarlier, h, if_pos hearlier]

theorem raiseMark_withdrawEarlier (b b' : Time) (s : State) : raiseMark b (withdrawEarlier b' s) = raiseMark b s := by
  unfold withdrawEarlier
  repeat' split
  · exact raiseMark_withdrawMark b s
  all_goals rfl

theorem withdrawEarlier_muted (b : Time) (s : State) : (withdrawEarlier b s).liu.muted = s.liu.muted := by
  unfold withdrawEarlier
  repeat' split
  all_goals rfl

/-- R37: outside mute the LIU has nothing to count at a boundary. -/
theorem takeMuteCount_of_unmuted {s : State} (h : s.liu.muted = false) :
    takeMuteCount s = { s with due := { s.due with liuBoundary := false } } := by
  cases hdue : s.due.liuBoundary with
  | true => exact (takeMuteCount_cases s).2.1 hdue h
  | false =>
    rw [(takeMuteCount_cases s).1 (.inl hdue)]
    have hsame : ({ s.due with liuBoundary := false } : Due) = s.due := by rw [← hdue]
    rw [hsame]

theorem askArbiter_due (d : Due) (s : State) : askArbiter { s with due := d } = { askArbiter s with due := d } := by
  unfold askArbiter; split <;> rfl

theorem askArbiter_muted (s : State) : (askArbiter s).liu.muted = s.liu.muted := by rw [askArbiter_frame]

theorem raiseMark_eq (b : Time) (s : State) : raiseMark b s = askArbiter { s with
    pub := { s.pub with markSlot := some { boundary := b, faults := 0 } }
    liu := { s.liu with attempt := s.liu.attempt.map fun a =>
      if a.item = .mark then { a with pending := false } else a } } := rfl

theorem raiseMark_due (b : Time) (d : Due) (s : State) :
    raiseMark b { s with due := d } = { raiseMark b s with due := d } :=
  askArbiter_due d { s with
    pub := { s.pub with markSlot := some { boundary := b, faults := 0 } }
    liu := { s.liu with attempt := s.liu.attempt.map fun a =>
      if a.item = .mark then { a with pending := false } else a } }

/-- The boundary is no longer due at the FTU. -/
def ftuBoundaryTaken (s : State) : State := { s with due := { s.due with ftuBoundary := false } }

theorem takeBoundary_eq {s : State} (hdue : s.due.ftuBoundary = true) (hlisten : listenEndDue s = false) :
    takeBoundary s = takeMuteCount (ftuBoundary s.ftu.time (ftuBoundaryTaken s)) := by
  rw [takeBoundary, if_pos hdue, takeListenEnd_of_notDue hlisten]; rfl

theorem lockedOn_iff' (s : State) : lockedOn s = true ↔ s.ftu.station = .synced ∨ s.ftu.station = .holdover := by
  simp [lockedOn]

theorem notListening_of_locked {s : State} (h : s.ftu.station = .synced ∨ s.ftu.station = .holdover) :
    listenEndDue s = false :=
  listenEndDue_eq_false fun hl => by rcases h with h | h <;> rw [h] at hl <;> exact nomatch hl.1

theorem ftuBoundary_raises {b : Time} {s : State} (hlocked : lockedOn s = true) (hmarker : s.ftu.marker ≠ some b)
    (hmuted : s.liu.muted = false) : ftuBoundary b s = raiseMark b s := by
  rw [ftuBoundary, if_pos hlocked]
  dsimp only
  rw [withdrawEarlier_ftu, withdrawEarlier_muted, if_pos ⟨hmarker, hmuted⟩, raiseMark_withdrawEarlier]

theorem ftuBoundary_withdraws {b : Time} {s : State} (hlocked : lockedOn s = true)
    (h : s.ftu.marker = some b ∨ s.liu.muted = true) : ftuBoundary b s = withdrawEarlier b s := by
  rw [ftuBoundary, if_pos hlocked]
  dsimp only
  rw [withdrawEarlier_ftu, withdrawEarlier_muted, if_neg]
  rintro ⟨hmarker, hmuted⟩
  rcases h with h | h
  · exact hmarker h
  · exact Bool.false_ne_true (hmuted.symm.trans h)

theorem ftuBoundary_unlocked {b : Time} {s : State} (h : lockedOn s = false) : ftuBoundary b s = s := by
  rw [ftuBoundary, if_neg (by simp [h])]

/-- R37: while muted, with no request pending, the FTU's part of a boundary changes nothing. -/
theorem ftuBoundary_of_muted {b : Time} {s : State} (hslot : s.pub.markSlot = none) (hmuted : s.liu.muted = true) :
    ftuBoundary b s = s := by
  cases hlocked : lockedOn s with
  | false => exact ftuBoundary_unlocked hlocked
  | true => rw [ftuBoundary_withdraws hlocked (.inr hmuted), withdrawEarlier_none hslot]

/-- Settles O32: the FTU's part by station state, satisfaction and mute, and then the LIU's. -/
theorem boundaryRaisesMark : Obligations.BoundaryRaisesMark := by
  intro s hdue d lost
  have hexec : exec .boundaryReached s = .next (takeBoundary s) := rfl
  refine ⟨fun hlocked hmuted hmarker => ?_, fun hlocked hmuted hmarker hearlier => ?_, fun hstation hmuted => ?_,
    fun hlisten hslot hmuted hliu hleft => ?_, fun hlisten hslot hmuted hliu hleft => ?_, fun hstation htime => ?_⟩
  · rw [hexec, takeBoundary_eq hdue (notListening_of_locked hlocked),
      ftuBoundary_raises (s := ftuBoundaryTaken s) ((lockedOn_iff' _).2 hlocked) hmarker hmuted, takeMuteCount_of_unmuted]
    · rw [ftuBoundaryTaken, raiseMark_due, raiseMark_eq]
    · unfold raiseMark; rw [askArbiter_muted]; exact hmuted
  · rw [hexec, takeBoundary_eq hdue (notListening_of_locked hlocked),
      ftuBoundary_withdraws (s := ftuBoundaryTaken s) ((lockedOn_iff' _).2 hlocked) (.inl hmarker),
      takeMuteCount_of_unmuted]
    · cases hslot : s.pub.markSlot with
      | none =>
        have hsame : ({ s.pub with markSlot := none } : Pub) = s.pub := by rw [← hslot]
        rw [withdrawEarlier_none (show (ftuBoundaryTaken s).pub.markSlot = none from hslot), if_pos rfl, hsame]
        rfl
      | some r =>
        rw [withdrawEarlier_earlier (show (ftuBoundaryTaken s).pub.markSlot = some r from hslot) (hearlier r hslot),
          if_neg (by simp)]
        rfl
    · rw [withdrawEarlier_muted]; exact hmuted
  · have hlisten : listenEndDue s = false := listenEndDue_eq_false fun hl => by
      rcases hstation with h | h
      · rw [h] at hl; exact nomatch hl.1
      · exact h.2 hl.2
    have hlocked : lockedOn (ftuBoundaryTaken s) = false := by
      rcases hstation with h | h <;> simp [lockedOn, ftuBoundaryTaken, h]
    rw [hexec, takeBoundary_eq hdue hlisten, ftuBoundary_unlocked hlocked,
      takeMuteCount_of_unmuted (s := ftuBoundaryTaken s) hmuted]
    rfl
  · rw [hexec, takeBoundary_eq hdue (listenEndDue_eq_false hlisten),
      ftuBoundary_of_muted (s := ftuBoundaryTaken s) hslot hmuted,
      (takeMuteCount_cases (ftuBoundaryTaken s)).2.2 hliu hmuted hleft]
    rfl
  · refine ⟨?_, takeUnmute s, rfl, ?_⟩
    · rw [hexec, takeBoundary_eq hdue (listenEndDue_eq_false hlisten),
        ftuBoundary_of_muted (s := ftuBoundaryTaken s) hslot hmuted,
        (takeMuteCount_cases (ftuBoundaryTaken s)).1 (.inr ⟨hmuted, hleft⟩)]
      rfl
    · rw [takeUnmute_last hliu hmuted hleft, endMute_eq]
      simp [hdue, hslot]
  · have hend := takeListenEnd_of_due ((listenEndDue_iff s).2 ⟨hstation, htime⟩)
    have hagain : takeListenEnd (takeListenEnd s) = takeListenEnd s :=
      takeListenEnd_of_notDue (takeListenEnd_listenEndDue s)
    have hstill : (takeListenEnd s).due = s.due := by rw [hend, writeRecord_due]
    rw [← hend]
    show Host.Outcome.next (takeBoundary s) = .next (takeBoundary (takeListenEnd s))
    unfold takeBoundary
    rw [hstill, hagain, if_pos hdue, if_pos hdue]

/-! ### Mid-epoch instants (R20, R21, R48, R50) -/

theorem holdoverCheck_entry {b : Time} {s : State} (hmarker : s.ftu.marker ≠ some b)
    (hs : s.ftu.station = .synced ∨ s.ftu.station = .discord) : holdoverCheck b s = enterHoldover s := by
  rcases hs with hs | hs <;> simp only [holdoverCheck, if_neg hmarker, hs]

/-- Settles O33: R20's table by station state. -/
theorem midEpochJudges : Obligations.MidEpochJudges := by
  refine ⟨fun rosterFirst s hdue => ?_, fun b s h => ?_, fun b s hmarker hs => ?_, fun b s hmarker hs => ?_⟩
  · show Host.Outcome.next (takeMidEpoch rosterFirst s) = _
    rw [takeMidEpoch, if_pos hdue]
    rfl
  · unfold holdoverCheck
    rcases h with h | h | h
    · rw [if_pos h]
    · rw [h]; split <;> rfl
    · rw [h]; split <;> rfl
  · rw [holdoverCheck_entry hmarker hs, enterHoldover, limitRecord]
    simp only [writeRecord_ftu, writeRecord_params, setFtu_ftu, setFtu_params, eq_comm (a := (1 : Byte)), recordNow]
    rfl
  · unfold holdoverCheck limitRecord
    rw [if_neg hmarker, hs]
    rfl

theorem peerLost_eq (s : State) (x : RosterEntry) : peerLost s x = writeRecord
    { kind := .peerLost, time := s.ftu.time, origin := some x.origin, value := some x.lastHeard } s := rfl

theorem ageRoster_eq (e : Time) (s : State) :
    ageRoster e s = (s.roster.filter (agedOut s.params e)).foldl
      (fun t x => writeRecord { kind := .peerLost, time := s.ftu.time, origin := some x.origin,
                                value := some x.lastHeard } t)
      { s with roster := s.roster.filter fun x => !agedOut s.params e x } := by
  have hfold (es : List RosterEntry) (t : State) (ht : t.ftu.time = s.ftu.time) : es.foldl peerLost t =
      es.foldl (fun t x => writeRecord { kind := .peerLost, time := s.ftu.time, origin := some x.origin,
                                         value := some x.lastHeard } t) t := by
    induction es generalizing t with
    | nil => rfl
    | cons x es ih =>
      rw [List.foldl_cons, List.foldl_cons, peerLost_eq, ht]
      exact ih _ (by rw [writeRecord_ftu, ht])
  exact hfold _ _ rfl

/-- Settles O34: aging writes one record for each entry that leaves, and the ROLL request has one condition. -/
theorem rosterAgesAndRolls : Obligations.RosterAgesAndRolls := by
  refine ⟨ageRoster_eq, fun e s hmuted hown => ?_, fun e s h => ?_⟩
  · rw [rollRequest, if_pos ⟨hown, hmuted⟩]; rfl
  · rw [rollRequest, if_neg]
    rintro ⟨hown, hmuted⟩
    rcases h with h | h
    · exact Bool.false_ne_true (hmuted.symm.trans h)
    · exact h hown

/-! ### Forward steps (R15, R85) -/

theorem muteBoundary_of_unmuted {s : State} (h : s.liu.muted = false) : muteBoundary s = s := by
  simp [muteBoundary, lastMuteBoundary_eq_false (.inl h), h]

theorem muteBoundary_counts {s : State} (hmuted : s.liu.muted = true) (hleft : 2 ≤ s.liu.muteLeft.toNat) :
    muteBoundary s = countMute s := by
  simp [muteBoundary, lastMuteBoundary_eq_false (.inr hleft), hmuted]

theorem muteBoundary_ends {s : State} (hmuted : s.liu.muted = true) (hleft : s.liu.muteLeft.toNat ≤ 1) :
    muteBoundary s = endMute s := by
  rw [muteBoundary, if_pos ((lastMuteBoundary_iff s).2 ⟨hmuted, hleft⟩)]

/-- R4: which of the last boundary and the last mid-epoch instant a step has reached. -/
theorem stepReached_eq (d : Nat) (agingFirst : Bool) {s : State} {t : Time} {p : Params} (ht : s.ftu.time = t)
    (hp : s.params = p) : stepReached d agingFirst s =
      (fun u => if (t - midEpochAtOrBefore p.k t).toNat < d then midEpochAt (midEpochAtOrBefore p.k t) agingFirst u else u)
        (if (t - boundaryAtOrBefore p.k t).toNat < d then stepBoundary (boundaryAtOrBefore p.k t) s else s) := by
  subst ht hp
  unfold stepReached reachedByStep
  simp only [decide_eq_true_eq]

/-- Settles O45: a step from a settled state begins with its move of T, and no operation of a step makes a tap instant
due. -/
theorem forwardStepReleases : Obligations.ForwardStepReleases := by
  refine ⟨fun d order s => ?_, fun b s => ?_, fun d order s hlow hhigh hsettled => ?_⟩
  · unfold forwardStep; rw [settle_settle]
  · refine ⟨muteBoundary_of_unmuted, muteBoundary_counts, fun hmuted hleft => ?_, withdrawEarlier_none,
      fun r => withdrawEarlier_later, fun r hslot hearlier => ?_⟩
    · rw [muteBoundary_ends hmuted hleft, endMute_eq]
    · rw [withdrawEarlier_earlier hslot hearlier, withdrawMark_eq]
  · refine ⟨?_, forwardStep_time d order s, fun c => ?_⟩
    · unfold forwardStep
      rw [settle_of_settled hsettled]
      dsimp only
      have hrelease {t : State} (ht : t.schedule = s.schedule) : stepRelease s.ftu.time d t = applyAll
          (s.schedule.filter fun a => decide (1 ≤ distance s.ftu.time a ∧ distance s.ftu.time a ≤ d))
          { t with
            schedule := t.schedule.filter fun a => !decide (1 ≤ distance s.ftu.time a ∧ distance s.ftu.time a ≤ d)
            counters := { t.counters with stepped := satAdd t.counters.stepped (s.schedule.filter fun a =>
              decide (1 ≤ distance s.ftu.time a ∧ distance s.ftu.time a ≤ d)).length } } := by
        simp only [Bool.decide_and, ← ht]; rfl
      have hreached {t : State} (htime : t.ftu.time = s.ftu.time + BitVec.ofNat 32 d) (hparams : t.params = s.params) :=
        stepReached_eq d order.agingFirst htime hparams
      generalize hu : setFtu (fun f => { f with time := s.ftu.time + BitVec.ofNat 32 d }) s = u
      have htime : u.ftu.time = s.ftu.time + BitVec.ofNat 32 d := by rw [← hu]; rfl
      have hparams : u.params = s.params := by rw [← hu]; rfl
      have hschedule : u.schedule = s.schedule := by rw [← hu]; rfl
      split
      · rw [hreached (by rwa [stepRelease_ftu]) ((Works.stepRelease ..).params.trans hparams), hrelease hschedule, ← hu]
        rfl
      · rw [hrelease ((Reaches.stepReached ..).schedule.trans hschedule), hreached htime hparams, ← hu]
        rfl
    · exact tapDue_false_of_works (Works.forwardStep d order s) (hsettled.2.2 c).1

end Sys2Proof.Machine
end

section
/-! What a fabric tick does to a channel (R99, R111), and what an action does to one (R101, R104 to R109). -/

namespace Sys2Proof.Machine

-- Proofs elaborated side by side need more threads than the memory limit of the check holds.
set_option Elab.async false

/-! ### A fabric tick at a channel (R99, R111, R135, R144) -/

/-- R99: the count that a tick takes from a channel, or leaves to the command of a start or an underflow. -/
def tickCounted (t : Time) (ch : Channel) : Channel :=
  if isTapInstant ch.cfg.rateTap t then
    if ch.state == .starting || underflows ch then { ch with tapDue := true } else plainCount ch
  else ch

theorem isTapInstant_iff (code : Byte) (t : Time) :
    isTapInstant code t = true ↔ t &&& (1#32 <<< (2 * code.toNat) - 1) = 0 := by
  simp [isTapInstant, tapTicks]

theorem plainCount_down {ch : Channel} (h : countsDown ch.state = true) :
    plainCount ch = { ch with counter := ch.counter - 1 } := by rw [plainCount, if_pos h]

/-- R135: the wrap count stays at its maximum. -/
theorem plainCount_up {ch : Channel} (h : ch.state = .counting) : plainCount ch = { ch with
    counter := ch.counter + 1
    wrap := if ch.counter = 0xFFFF ∧ ch.wrap ≠ 0xFF then ch.wrap + 1 else ch.wrap } := by
  have hdown : countsDown ch.state = false := by rw [h]; rfl
  have hwrap : (if ch.counter = 0xFFFF then satIncByte ch.wrap else ch.wrap) =
      if ch.counter = 0xFFFF ∧ ch.wrap ≠ 0xFF then ch.wrap + 1 else ch.wrap := by
    unfold satIncByte
    by_cases hcounter : ch.counter = 0xFFFF#16 <;> by_cases hmax : ch.wrap = 0xFF#8 <;> simp [hcounter, hmax]
  rw [plainCount, if_neg (by simp [hdown]), if_pos h, hwrap]

theorem plainCount_still {ch : Channel} (hdown : countsDown ch.state = false) (h : ch.state ≠ .counting) :
    plainCount ch = ch := by rw [plainCount, if_neg (by simp [hdown]), if_neg h]

theorem countsDown_iff (st : ChannelState) :
    countsDown st = true ↔ st ∈ [.active, .lead, .running, .phaseA, .phaseB, .qualifying] := by cases st <;> decide

theorem tickCounted_outside {t : Time} {ch : Channel} (h : isTapInstant ch.cfg.rateTap t = false) :
    tickCounted t ch = ch := by rw [tickCounted, if_neg (by simp [h])]

theorem tickCounted_left {t : Time} {ch : Channel} (htap : isTapInstant ch.cfg.rateTap t = true)
    (h : ch.state = .starting ∨ underflows ch = true) : tickCounted t ch = { ch with tapDue := true } := by
  rw [tickCounted, if_pos htap, if_pos (by rcases h with h | h <;> simp [h])]

theorem tickCounted_counts {t : Time} {ch : Channel} (htap : isTapInstant ch.cfg.rateTap t = true)
    (hstart : ch.state ≠ .starting) (h : underflows ch = false) : tickCounted t ch = plainCount ch := by
  rw [tickCounted, if_pos htap, if_neg (by simp [hstart, h])]

theorem plainCount_items (ch : Channel) :
    (plainCount ch).cfg = ch.cfg ∧ (plainCount ch).state = ch.state ∧ (plainCount ch).workA = ch.workA ∧
      (plainCount ch).sampleOpen = ch.sampleOpen := by
  unfold plainCount; repeat' split
  all_goals exact ⟨rfl, rfl, rfl, rfl⟩

theorem tickCounted_items (t : Time) (ch : Channel) :
    (tickCounted t ch).cfg = ch.cfg ∧ (tickCounted t ch).state = ch.state ∧ (tickCounted t ch).workA = ch.workA ∧
      (tickCounted t ch).sampleOpen = ch.sampleOpen := by
  unfold tickCounted
  split
  · split
    · exact ⟨rfl, rfl, rfl, rfl⟩
    · exact plainCount_items ch
  · exact ⟨rfl, rfl, rfl, rfl⟩

theorem tickChannel_onTime (t : Time) (pin : Bool) {ch : Channel} (hmode : ch.cfg.mode ≠ .unused) :
    tickChannel t false pin ch =
      if isInputMode ch.cfg.mode then
        if ch.sampled.isNone then followLevel t pin (recordSample pin (tickCounted t ch))
        else { tickCounted t ch with sampleOpen := true }
      else tickCounted t ch := by
  simp [tickChannel, tickCounted, hmode]

theorem tickChannel_late (t : Time) (pin : Bool) {ch : Channel} (hmode : ch.cfg.mode ≠ .unused) :
    tickChannel t true pin ch =
      { ch with tapDue := if isTapInstant ch.cfg.rateTap t then true else ch.tapDue
                sampleOpen := isInputMode ch.cfg.mode || ch.sampleOpen } := by
  unfold tickChannel
  cases htap : isTapInstant ch.cfg.rateTap t <;> cases hinput : isInputMode ch.cfg.mode <;> simp [hmode]

/-- R144: what a QUALIFY channel makes of a level. -/
theorem followLevel_begins {t : Time} {level : Bool} {ch : Channel} (hstate : ch.state = .watching)
    (h : isActiveLevel ch.cfg level = true) : followLevel t level ch = beginRun t ch := by
  simp [followLevel, hstate, h]

theorem followLevel_ends {t : Time} {level : Bool} {ch : Channel} (hstate : ch.state = .qualifying ∨ ch.state = .held)
    (h : isActiveLevel ch.cfg level = false) : followLevel t level ch = { ch with state := .watching } := by
  rcases hstate with hs | hs <;> simp [followLevel, hs, h]

theorem followLevel_stays {t : Time} {level : Bool} {ch : Channel}
    (hbegins : ¬ (ch.state = .watching ∧ isActiveLevel ch.cfg level = true))
    (hends : ¬ ((ch.state = .qualifying ∨ ch.state = .held) ∧ isActiveLevel ch.cfg level = false)) :
    followLevel t level ch = ch := by
  unfold followLevel
  split
  · next hs => exact if_neg fun h => hbegins ⟨hs, h⟩
  · next hs => exact if_pos (by simpa [hs] using hends)
  · next hs => exact if_pos (by simpa [hs] using hends)
  all_goals rfl

theorem isActiveLevel_iff (cfg : ChannelConfig) (level : Bool) :
    isActiveLevel cfg level = true ↔ level = (cfg.activeLevel != 0) := by simp [isActiveLevel]

theorem isActiveLevel_eq_false_iff (cfg : ChannelConfig) (level : Bool) :
    isActiveLevel cfg level = false ↔ ¬ level = (cfg.activeLevel != 0) := by simp [isActiveLevel]

/-- Settles O30: the count by state, and then the sample by mode. -/
theorem tickCountsChannels : Obligations.TickCountsChannels := by
  intro t pin ch hmode sampling tap down active
  have htap : isTapInstant ch.cfg.rateTap t = true ↔ tap := isTapInstant_iff ..
  obtain ⟨hcfg, hstate, hworkA, hopen⟩ := tickCounted_items t ch
  have hunder : underflows ch = true ↔ down ∧ ch.counter = 0 := by
    simp only [underflows, Bool.and_eq_true, countsDown_iff, beq_iff_eq]; rfl
  have hnotUnder (h : ¬ (down ∧ ch.counter = 0)) : underflows ch = false := Bool.eq_false_iff.2 fun h' => h (hunder.1 h')
  refine ⟨tickCounted t ch, fun h => ?_, fun h hs => ?_, fun h hdown hzero => ?_, fun h hdown hne => ?_, fun h hs => ?_,
    fun h hs => ?_, fun h => ?_, fun hsampled hinput => ?_, ?_⟩
  · exact tickCounted_outside (Bool.eq_false_iff.2 fun h' => h (htap.1 h'))
  · exact tickCounted_left (htap.2 h) (.inl hs)
  · exact tickCounted_left (htap.2 h) (.inr (hunder.2 ⟨hdown, hzero⟩))
  · have hstart : ch.state ≠ .starting := fun hs => by simp [down, hs] at hdown
    rw [tickCounted_counts (htap.2 h) hstart (hnotUnder fun h' => hne h'.2),
      plainCount_down ((countsDown_iff _).2 hdown)]
  · have hnotDown : ¬ down := by simp [down, hs]
    rw [tickCounted_counts (htap.2 h) (by simp [hs]) (hnotUnder fun h' => hnotDown h'.1), plainCount_up hs]
  · have hnotDown : ¬ down := fun hdown => by
      simp only [List.mem_cons, List.not_mem_nil, or_false] at hs
      rcases hs with hs | hs | hs | hs <;> simp [down, hs] at hdown
    have hother : ch.state ≠ .starting ∧ ch.state ≠ .counting := by
      constructor <;> intro h' <;> simp [h'] at hs
    rw [tickCounted_counts (htap.2 h) hother.1 (hnotUnder fun h' => hnotDown h'.1),
      plainCount_still (Bool.eq_false_iff.2 fun h' => hnotDown ((countsDown_iff _).1 h')) hother.2]
  · rw [tickChannel_onTime t pin hmode]
    cases hinput : isInputMode ch.cfg.mode with
    | true =>
      have hsome : ch.sampled.isSome = true := h.resolve_right (by simp [hinput])
      simp [sampling, hinput, Option.isSome_iff_ne_none.1 hsome]
    | false =>
      have hsame : sampling = (tickCounted t ch).sampleOpen := by rw [hopen]; simp [sampling, hinput]
      rw [hsame]; rfl
  · intro seen
    have htick : tickChannel t false pin ch = followLevel t pin seen := by
      rw [tickChannel_onTime t pin hmode, if_pos hinput, if_pos (by simp [hsampled])]; rfl
    have hactive : isActiveLevel seen.cfg pin = true ↔ active := by
      rw [isActiveLevel_iff]; show _ = ((tickCounted t ch).cfg.activeLevel != 0) ↔ _; rw [hcfg]
    have hinactive : isActiveLevel seen.cfg pin = false ↔ ¬ active := by rw [← hactive]; simp
    have hseen : seen.state = ch.state := hstate
    refine ⟨fun hs ha => ?_, fun hs ha => ?_, fun hbegins hends => ?_⟩
    · rw [htick, followLevel_begins (hseen.trans hs) (hactive.2 ha), beginRun, show seen.workA = ch.workA from hworkA]
    · rw [htick, followLevel_ends (by rwa [hseen]) (hinactive.2 ha)]
    · rw [htick, followLevel_stays (by rwa [hseen, hactive]) (by rwa [hseen, hinactive])]
  · rw [tickChannel_late t pin hmode]
    simp only [htap, sampling]

/-! ### An action at a channel (R83) -/

theorem exec_release (s : State) : exec .release s = .next (releaseAmong s) := rfl

/-- R83, R84: what an action does whatever is due, a RELEASE of it alone does. -/
theorem applyAction_and_release {a : PendingAction} {f : State → State} {s : State}
    (h : ∀ d, applyAction a { s with due := d } = f { s with due := d }) :
    applyAction a s = f s ∧ (s.due.releasing = [a] → s.due.moments = [] →
      exec .release s = .next (f { s with due := { s.due with releasing := [], moments := [] } })) := by
  refine ⟨h s.due, fun hreleasing hmoments => ?_⟩
  rw [exec_release, releaseAmong_nil s hmoments, releaseDue, hreleasing]
  exact congrArg _ (h _)

theorem actionAllowed_general {mode : Mode} {a : Action} (hmode : mode ≠ .unused) (h : a = .arm ∨ a = .halt ∨ a = .snap) :
    actionAllowed mode a = true := by
  rcases h with rfl | rfl | rfl <;> cases mode <;> first | rfl | exact absurd rfl hmode

theorem applyAction_arm {a : PendingAction} {s : State} (hmode : (channelOf s a.channel).cfg.mode ≠ .unused)
    (h : a.action = .arm) : applyAction a s = takeArm a s := by
  simp [applyAction, h, actionAllowed_general hmode]

theorem applyAction_halt {a : PendingAction} {s : State} (hmode : (channelOf s a.channel).cfg.mode ≠ .unused)
    (h : a.action = .halt) : applyAction a s = takeHalt a s := by
  simp [applyAction, h, actionAllowed_general hmode]

theorem applyAction_snap {a : PendingAction} {s : State} (hmode : (channelOf s a.channel).cfg.mode ≠ .unused)
    (h : a.action = .snap) : applyAction a s = takeSnap a s := by
  simp [applyAction, h, actionAllowed_general hmode]

theorem takeArm_idle {a : PendingAction} {s : State} (h : (channelOf s a.channel).state = .idle) :
    takeArm a s = setChannel a.channel (armed (channelOf s a.channel)) s := by
  unfold takeArm
  dsimp only
  split <;> first | rfl | (next hs => rw [h] at hs; exact nomatch hs)

/-- R119: a ONE_SHOT in ACTIVE is retriggered. -/
theorem takeArm_retriggers {a : PendingAction} {s : State} (h : (channelOf s a.channel).state = .active)
    (hshot : (channelOf s a.channel).cfg.mode = .oneShot) :
    takeArm a s = setChannel a.channel { channelOf s a.channel with counter := (channelOf s a.channel).workA } s := by
  unfold takeArm
  dsimp only
  split <;> first | exact if_pos hshot | (next hs => rw [h] at hs; exact nomatch hs)

/-- R101, R104: no state but IDLE and a ONE_SHOT's ACTIVE takes an ARM. -/
theorem takeArm_refuses {a : PendingAction} {s : State} (hidle : (channelOf s a.channel).state ∉ [.idle, .disabled])
    (hshot : ¬ ((channelOf s a.channel).state = .active ∧ (channelOf s a.channel).cfg.mode = .oneShot)) :
    takeArm a s = refuseAction a s := by
  unfold takeArm
  dsimp only
  split
  · next hs => simp [hs] at hidle
  · next hs => exact if_neg fun hm => hshot ⟨hs, hm⟩
  · next hs => simp [hs] at hidle
  all_goals rfl

theorem refuseAction_eq {a : PendingAction} {x : Action} (h : a.action = x) (s : State) : refuseAction a s =
    writeRecord { kind := .actionRefused, time := s.ftu.time, channel := some a.channel, origin := some a.cause.origin,
                  tag := some a.cause.tag, sequence := a.cause.sequence,
                  value := some ((actionCode x).setWidth 32) } s := by subst h; rfl

/-- Settles O36: each action's equation by state, carried to a RELEASE of it alone. -/
theorem armHaltSnapByState : Obligations.ArmHaltSnapByState := by
  intro a s takes ch record hmode
  have takes_of (f : State → State) (h : ∀ d, applyAction a { s with due := d } = f { s with due := d }) : takes f :=
    applyAction_and_release h
  clear_value takes
  refine ⟨fun ha hs => ?_, fun ha hs hshot => ?_, fun ha hs hshot => ?_, fun ha hs => ?_, fun ha hs => ?_, fun ha => ?_⟩ <;>
    refine takes_of _ fun d => ?_
  · rw [applyAction_arm (s := { s with due := d }) hmode ha]
    have hstate : (channelOf { s with due := d } a.channel).state = .idle := hs
    rw [takeArm_idle hstate]
    rfl
  · rw [applyAction_arm (s := { s with due := d }) hmode ha]
    have hstate : (channelOf { s with due := d } a.channel).state = .active := hs
    have hshot' : (channelOf { s with due := d } a.channel).cfg.mode = .oneShot := hshot
    rw [takeArm_retriggers hstate hshot']
    rfl
  · rw [applyAction_arm (s := { s with due := d }) hmode ha, takeArm_refuses (s := { s with due := d }) hs hshot,
      refuseAction_eq ha]
    rfl
  · rw [applyAction_halt (s := { s with due := d }) hmode ha]
    exact if_pos (.inl hs)
  · rw [applyAction_halt (s := { s with due := d }) hmode ha]
    exact if_neg fun h => hs (by rcases h with h | h <;> exact List.mem_of_elem_eq_true (by rw [show ch.state = _ from h]; rfl))
  · rw [applyAction_snap (s := { s with due := d }) hmode ha]
    rfl

/-! ### CORRECT (R107, R108) -/

theorem applyAction_correct {a : PendingAction} {operand : Half} {s : State} (ha : a.action = .correct)
    (hoperand : a.operand = some operand)
    (hmode : (channelOf s a.channel).cfg.mode = .oneShot ∨ (channelOf s a.channel).cfg.mode = .delayed) :
    applyAction a s = takeCorrect a operand.toInt s := by
  have hallowed : actionAllowed (channelOf s a.channel).cfg.mode .correct = true := by
    rcases hmode with h | h <;> rw [h] <;> rfl
  simp [applyAction, ha, hoperand, hallowed]

theorem takeCorrect_idle {a : PendingAction} {v : Int} {s : State} (h : (channelOf s a.channel).state = .idle) :
    takeCorrect a v s = refuseAction a s := by simp [takeCorrect, h]

theorem takeCorrect_starting {a : PendingAction} {v : Int} {s : State} (h : (channelOf s a.channel).state = .starting) :
    takeCorrect a v s = setChannel a.channel (holdCorrection v (channelOf s a.channel)) s := by simp [takeCorrect, h]

theorem holdCorrection_none {v : Int} {ch : Channel} (h : ch.held = none) :
    holdCorrection v ch = { ch with held := some v } := by simp [holdCorrection, h]

theorem holdCorrection_some {v x : Int} {ch : Channel} (h : ch.held = some x) :
    holdCorrection v ch = { ch with held := some (clampInt (-65535) 65535 (x + v)) } := by simp [holdCorrection, h]

theorem takeCorrect_running {a : PendingAction} {v : Int} {s : State}
    (h : (channelOf s a.channel).state = .active ∨ (channelOf s a.channel).state = .lead) :
    takeCorrect a v s = correctRunning a v s := by
  rcases h with h | h <;> simp [takeCorrect, h]

theorem clampCounter_within {x : Int} (hlow : 0 ≤ x) (hhigh : x ≤ 65535) : ((clampCounter x).toNat : Int) = x := by
  have hclamp : clampInt 0 65535 x = x := by unfold clampInt; omega
  have hlt : x % ((2 ^ 16 : Nat) : Int) = x := by omega
  rw [clampCounter, hclamp, BitVec.toNat_ofInt, hlt, Int.toNat_of_nonneg hlow]

theorem clampCounter_below {x : Int} (h : x < 0) : clampCounter x = 0 := by
  have hclamp : clampInt 0 65535 x = 0 := by unfold clampInt; omega
  rw [clampCounter, hclamp]; rfl

theorem clampCounter_above {x : Int} (h : 65535 < x) : clampCounter x = 0xFFFF := by
  have hclamp : clampInt 0 65535 x = 65535 := by unfold clampInt; omega
  rw [clampCounter, hclamp]; rfl

theorem isClamped_iff (x : Int) : isClamped x = true ↔ x < 0 ∨ 65535 < x := by simp [isClamped]

/-- R107: a sum outside the counter's range is clamped with a CLAMPED record. -/
theorem correctRunning_clamps {a : PendingAction} {v : Int} {s : State} {x : Half}
    (hout : ((channelOf s a.channel).counter.toNat : Int) + v < 0 ∨
      65535 < ((channelOf s a.channel).counter.toNat : Int) + v)
    (hx : clampCounter (((channelOf s a.channel).counter.toNat : Int) + v) = x) :
    correctRunning a v s =
      writeRecord (causeRecord .clamped a.channel a.cause.origin a.cause.tag a.cause.sequence
        (BitVec.ofInt 32 (((channelOf s a.channel).counter.toNat : Int) + v)) s)
        (setChannel a.channel { channelOf s a.channel with counter := x } s) := by
  subst hx
  exact if_pos ((isClamped_iff _).2 hout)

/-- Settles O37: by state, and for a running counter by where the exact sum lies. -/
theorem correctByState : Obligations.CorrectByState := by
  intro a operand s ha hoperand takes ch v sum record hmode
  have takes_of (f : State → State) (h : ∀ d, applyAction a { s with due := d } = f { s with due := d }) : takes f :=
    applyAction_and_release h
  clear_value takes
  have hcorrect (d : Due) : applyAction a { s with due := d } = takeCorrect a operand.toInt { s with due := d } :=
    applyAction_correct ha hoperand hmode
  have hrunning (hs : ch.state = .active ∨ ch.state = .lead) (d : Due) :
      applyAction a { s with due := d } = correctRunning a operand.toInt { s with due := d } :=
    (hcorrect d).trans (takeCorrect_running hs)
  refine ⟨fun hs => ?_, fun hs hheld => ?_, fun h hs hheld => ?_, fun hs hlow hhigh => ?_, fun hs hbelow => ?_,
    fun hs habove => ?_⟩
  · refine takes_of _ fun d => (hcorrect d).trans ?_
    have hstate : (channelOf { s with due := d } a.channel).state = .idle := hs
    rw [takeCorrect_idle hstate, refuseAction_eq ha]; rfl
  · refine takes_of _ fun d => (hcorrect d).trans ?_
    have hstate : (channelOf { s with due := d } a.channel).state = .starting := hs
    have hheld' : (channelOf { s with due := d } a.channel).held = none := hheld
    rw [takeCorrect_starting hstate, holdCorrection_none hheld']
    rfl
  · refine takes_of _ fun d => (hcorrect d).trans ?_
    have hstate : (channelOf { s with due := d } a.channel).state = .starting := hs
    have hheld' : (channelOf { s with due := d } a.channel).held = some h := hheld
    rw [takeCorrect_starting hstate, holdCorrection_some hheld']
    rfl
  · refine ⟨clampCounter sum, clampCounter_within hlow hhigh, takes_of _ fun d => (hrunning hs d).trans ?_⟩
    exact if_neg fun h => by have hout := (isClamped_iff sum).1 h; omega
  · refine takes_of _ fun d => (hrunning hs d).trans ?_
    exact correctRunning_clamps (s := { s with due := d }) (.inl hbelow) (clampCounter_below hbelow)
  · refine takes_of _ fun d => (hrunning hs d).trans ?_
    exact correctRunning_clamps (s := { s with due := d }) (.inr habove) (clampCounter_above habove)

/-! ### LOAD_A and LOAD_B (R109, R130) -/

theorem applyAction_loadA {a : PendingAction} {v : Half} {s : State} (ha : a.action = .loadA) (hv : a.operand = some v)
    (hmode : actionAllowed (channelOf s a.channel).cfg.mode .loadA = true) :
    applyAction a s = setChannel a.channel (loadedA v (channelOf s a.channel)) s := by
  simp [applyAction, ha, hv, hmode]

theorem applyAction_loadB {a : PendingAction} {v : Half} {s : State} (ha : a.action = .loadB) (hv : a.operand = some v)
    (hmode : actionAllowed (channelOf s a.channel).cfg.mode .loadB = true) :
    applyAction a s = setChannel a.channel (loadedB v (channelOf s a.channel)) s := by
  simp [applyAction, ha, hv, hmode]

theorem isRunning_iff (st : ChannelState) : isRunning st = true ↔ st ∉ [.disabled, .idle, .starting] := by
  cases st <;> decide

theorem loadAllowed_iff (mode : Mode) :
    (actionAllowed mode .loadA = true ↔ mode ∈ [.oneShot, .delayed, .repeating, .paired, .qualify]) ∧
      (actionAllowed mode .loadB = true ↔ mode ∈ [.delayed, .paired]) := by cases mode <;> decide

/-- Settles O38: a load stages in a running PAIRED channel and sets the working value otherwise. -/
theorem loadSetsOrStages : Obligations.LoadSetsOrStages := by
  intro a v s hv takes ch staging
  have takes_of (f : State → State) (h : ∀ d, applyAction a { s with due := d } = f { s with due := d }) : takes f :=
    applyAction_and_release h
  clear_value takes
  have hstaging : staging ↔ ch.cfg.mode = .paired ∧ isRunning ch.state = true := by rw [isRunning_iff]
  have hA (ha : a.action = .loadA) (hmode : ch.cfg.mode ∈ [.oneShot, .delayed, .repeating, .paired, .qualify]) (d : Due) :
      applyAction a { s with due := d } = setChannel a.channel (loadedA v ch) { s with due := d } :=
    applyAction_loadA (s := { s with due := d }) ha hv ((loadAllowed_iff _).1.2 hmode)
  have hB (ha : a.action = .loadB) (hmode : ch.cfg.mode ∈ [.delayed, .paired]) (d : Due) :
      applyAction a { s with due := d } = setChannel a.channel (loadedB v ch) { s with due := d } :=
    applyAction_loadB (s := { s with due := d }) ha hv ((loadAllowed_iff _).2.2 hmode)
  refine ⟨fun ha hmode => ⟨fun h => ?_, fun h => ?_⟩, fun ha hmode => ⟨fun h => ?_, fun h => ?_⟩⟩ <;>
    refine takes_of _ fun d => ?_
  · rw [hA ha hmode, loadedA, if_pos (hstaging.1 h)]
  · rw [hA ha hmode, loadedA, if_neg fun h' => h (hstaging.2 h')]
  · rw [hB ha hmode, loadedB, if_pos (hstaging.1 h)]
  · rw [hB ha hmode, loadedB, if_neg fun h' => h (hstaging.2 h')]

end Sys2Proof.Machine
end

section
/-! Placement (R77 to R82), the walk of a notice (R62 to R71), a release (R84, R134) and publishing (R112, R150 to R152). -/

namespace Sys2Proof.Machine

-- Proofs elaborated side by side need more threads than the memory limit of the check holds.
set_option Elab.async false

/-! ### Placement (R77, R79 to R82) -/

theorem placeAction_full {a : PendingAction} {s : State} (hahead : lateness a.due s.ftu.time < 0)
    (hfull : s.schedule.length = 32) : placeAction a s = displaceOrRefuse a s := by
  have hroom : ¬ s.schedule.length < Config.scheduleCapacity := by rw [hfull]; decide
  simp only [placeAction, if_pos hahead, if_neg hroom]

theorem placeAction_now {a : PendingAction} {s : State} (h : lateness a.due s.ftu.time = 0) :
    placeAction a s = applyAction a s := by
  simp [placeAction, h]

theorem placeAction_late {a : PendingAction} {s : State} (hpos : 0 < lateness a.due s.ftu.time)
    (hlimit : lateness a.due s.ftu.time ≤ s.params.lateLimit.toNat) :
    placeAction a s =
      applyAction a (writeRecord (scheduleRecord .late a (BitVec.ofInt 32 (lateness a.due s.ftu.time)) s) s) := by
  have hnonneg : ¬ lateness a.due s.ftu.time < 0 := by omega
  have hnonzero : ¬ lateness a.due s.ftu.time = 0 := by omega
  simp only [placeAction, if_neg hnonneg, if_neg hnonzero, if_pos hlimit]

/-- Settles O40: by lateness, and ahead of T by room and by the last entry's distance. -/
theorem placementByLateness : Obligations.PlacementByLateness := by
  intro a s late record
  refine ⟨placeAction_insert, fun front last hahead hsplit hfull hnear => ?_, fun front last hahead hsplit hfull hfar => ?_,
    placeAction_now, placeAction_late, placeAction_expired⟩
  · rw [placeAction_full hahead hfull, displaceOrRefuse, hsplit]
    simp only [List.getLast?_append, List.getLast?_singleton, Option.some_or, if_pos hnear, List.dropLast_concat]
    rfl
  · rw [placeAction_full hahead hfull, displaceOrRefuse, hsplit]
    simp only [List.getLast?_append, List.getLast?_singleton, Option.some_or, if_neg (Nat.not_lt.2 hfar)]
    rfl

/-! ### The walk (R62, R63, R66 to R71) -/

/-- R62: what an origin filter accepts. -/
theorem filterAccepts_iff (own : StationId) (filter : OriginFilter) (origin : StationId) :
    filterAccepts own filter origin = true ↔ match filter with
      | .any => True
      | .self => origin = own
      | .remote => origin ≠ own
      | .station x => origin = x := by
  cases filter <;> simp [filterAccepts]

theorem entryMatches_iff (own : StationId) (e : TrigEntry) (n : Notice) :
    entryMatches own e n = true ↔
      e.valid = true ∧ e.tag = n.tag ∧ filterAccepts own e.filter n.origin = true := by
  simp [entryMatches, and_assoc]

theorem walkEntry_passes {n : Notice} {i : Nat} {e : TrigEntry} {s : State} (h : entryMatches s.params.id e n = false) :
    walkEntry n i e s = s := if_neg (by simp [h])

theorem walkEntry_noValue {n : Notice} {i : Nat} {e : TrigEntry} {s : State} (h : entryMatches s.params.id e n = true)
    (hoperand : operandOf e n.value = none) : walkEntry n i e s =
      writeRecord (causeRecord .noValue e.channel n.origin n.tag n.sequence (BitVec.ofNat 32 i) s) s := by
  rw [walkEntry, if_pos h, hoperand]

theorem walkEntry_derives {n : Notice} {i : Nat} {e : TrigEntry} {s : State} {operand : Option Half}
    (h : entryMatches s.params.id e n = true) (hoperand : operandOf e n.value = some operand) :
    walkEntry n i e s = placeAction (deriveAction n i e operand)
      (if e.note then writeRecord (causeRecord .matched e.channel n.origin n.tag n.sequence
        (deriveAction n i e operand).due s) s else s) := by
  rw [walkEntry, if_pos h, hoperand]

/-- R63: the operand by source. -/
theorem operandOf_eq_some_iff (e : TrigEntry) (value operand : Option Half) :
    operandOf e value = some operand ↔
      e.source = .noOperand ∧ operand = none ∨ e.source = .fixed ∧ operand = some e.fixed ∨
        ∃ v, e.source = .frame ∧ value = some v ∧ operand = some v := by
  unfold operandOf
  cases hs : e.source with
  | noOperand => simp [eq_comm]
  | frame => cases value <;> simp [eq_comm]
  | fixed => simp [eq_comm]

/-- R66: the walk takes the entries with their indexes. -/
theorem walkFrom_eq (n : Notice) (i : Nat) (es : List TrigEntry) (s : State) :
    walkFrom n i es s = (es.zipIdx i).foldl (fun t x => walkEntry n x.2 x.1 t) s := by
  induction es generalizing i s with
  | nil => rfl
  | cons e es ih => rw [walkFrom, ih, List.zipIdx_cons, List.foldl_cons]

theorem mem_derivedActions {n : Notice} {s : State} {a : PendingAction} : a ∈ derivedActions n s ↔
    ∃ (i : Nat) (e : TrigEntry) (operand : Option Half), s.table[i]? = some e ∧ entryMatches s.params.id e n = true ∧
      operandOf e n.value = some operand ∧ a = deriveAction n i e operand := by
  unfold derivedActions
  rw [List.mem_filterMap]
  constructor
  · rintro ⟨⟨e, i⟩, hmem, h⟩
    dsimp only at h
    split at h
    · next hmatch =>
      obtain ⟨operand, hoperand, ha⟩ := Option.map_eq_some_iff.1 h
      exact ⟨i, e, operand, List.mk_mem_zipIdx_iff_getElem?.1 hmem, hmatch, hoperand, ha.symm⟩
    · exact nomatch h
  · rintro ⟨i, e, operand, hget, hmatch, hoperand, rfl⟩
    exact ⟨(e, i), List.mk_mem_zipIdx_iff_getElem?.2 hget, by simp [hmatch, hoperand]⟩

theorem placesAction_iff (o : Occurrence) (s : State) :
    placesAction o s = true ↔ derivedActions (noticeOf o s) s ≠ [] := by
  simp [placesAction]

theorem mem_actionsAt {c : ChannelId} {s : State} {o : Occurrence} {a : PendingAction} : a ∈ actionsAt c s o ↔
    a ∈ derivedActions (noticeOf o s) s ∧ a.channel = c ∧ 0 ≤ lateness a.due s.ftu.time ∧
      lateness a.due s.ftu.time ≤ s.params.lateLimit.toNat := by
  simp [actionsAt, List.mem_filter, appliedAtOnce]

/-- R112, R116, R117: what of a channel an action of this kind looks at. -/
theorem findsSame_iff (a : Action) (old new : Channel) : findsSame a old new = true ↔
    new.state = old.state ∧ new.output = old.output ∧ new.stagedA = old.stagedA ∧ new.stagedB = old.stagedB ∧
      new.pairReady = old.pairReady ∧
      (a = .arm → old.cfg.mode = .oneShot → old.state = .active → new.workA = old.workA) ∧
      (a = .correct → new.counter = old.counter ∧ new.held = old.held) ∧
      (a = .snap → new.counter = old.counter) := by
  have harm : (old.workA == new.workA || !(old.cfg.mode == .oneShot && old.state == .active)) = true ↔
      (old.cfg.mode = .oneShot → old.state = .active → new.workA = old.workA) := by
    by_cases hmode : old.cfg.mode = .oneShot <;> by_cases hstate : old.state = .active <;>
      simp [hmode, hstate, @eq_comm _ old.workA new.workA]
  unfold findsSame
  cases a <;>
    simp only [harm, Bool.and_eq_true, beq_iff_eq, and_assoc, @eq_comm _ old.state new.state,
      @eq_comm _ old.output new.output, @eq_comm _ old.stagedA new.stagedA, @eq_comm _ old.stagedB new.stagedB,
      @eq_comm _ old.pairReady new.pairReady, @eq_comm _ old.counter new.counter, @eq_comm _ old.held new.held] <;>
    simp

theorem disturbs_eq_false_iff (c : ChannelId) (o : Occurrence) (s t : State) : disturbs c o s t = false ↔
    ∀ a ∈ actionsAt c s o, findsSame a.action (channelOf s c) (channelOf t c) = true := by
  simp [disturbs]

/-- Settles O39: the entry's equation by match and operand, the walk as a fold, and its derived actions by membership. -/
theorem walkDerivesActions : Obligations.WalkDerivesActions := by
  refine ⟨fun n i e s => ?_, fun n s => walkFrom_eq n 0 s.table s, fun n s a => ?_, fun o c s => ?_⟩
  · intro accepts matching record action derive
    have hmatching : entryMatches s.params.id e n = true ↔ matching := by
      rw [entryMatches_iff, filterAccepts_iff] <;> exact Iff.rfl
    have hderives (operand : Option Half) (hm : matching) (h : operandOf e n.value = some operand) :
        walkEntry n i e s = derive operand := walkEntry_derives (hmatching.2 hm) h
    refine ⟨fun hm => ?_, fun hm hsource hvalue => ?_, fun v hm hsource hvalue => ?_, fun hm hsource => ?_,
      fun hm hsource => ?_⟩
    · exact walkEntry_passes (Bool.eq_false_iff.2 fun h => hm (hmatching.1 h))
    · exact walkEntry_noValue (hmatching.2 hm) (by simp [operandOf, hsource, hvalue])
    · exact hderives _ hm (by simp [operandOf, hsource, hvalue])
    · exact hderives _ hm (by simp [operandOf, hsource])
    · exact hderives _ hm (by simp [operandOf, hsource])
  · rw [mem_derivedActions]
    simp only [operandOf_eq_some_iff]
    rfl
  · refine ⟨placesAction_iff o s, fun a => mem_actionsAt, fun t => ?_⟩
    rw [disturbs_eq_false_iff]
    simp only [findsSame_iff]

/-! ### A release (R83, R84, R134) -/

theorem writeRecord_setDue (r : Record) (d : Due) (s : State) :
    writeRecord r { s with due := d } = { writeRecord r s with due := d } := by
  unfold writeRecord; split <;> rfl

/-- R83: what is due bears on no action. -/
theorem applyAction_setDue (a : PendingAction) (d : Due) (s : State) :
    applyAction a { s with due := d } = { applyAction a s with due := d } := by
  have hrefuse : refuseAction a { s with due := d } = { refuseAction a s with due := d } := writeRecord_setDue ..
  have hcorrect (v : Int) : correctRunning a v { s with due := d } = { correctRunning a v s with due := d } := by
    unfold correctRunning
    dsimp only [channelOf]
    split
    · exact writeRecord_setDue _ d (setChannel a.channel _ s)
    · rfl
  have harm : takeArm a { s with due := d } = { takeArm a s with due := d } := by
    unfold takeArm
    dsimp only [channelOf]
    split
    · rfl
    · split
      · rfl
      · exact hrefuse
    · rfl
    all_goals exact hrefuse
  have htakeCorrect (v : Int) : takeCorrect a v { s with due := d } = { takeCorrect a v s with due := d } := by
    unfold takeCorrect
    dsimp only [channelOf]
    split
    · exact hrefuse
    · rfl
    · exact hcorrect v
    · exact hcorrect v
    all_goals rfl
  have hhalt : takeHalt a { s with due := d } = { takeHalt a s with due := d } := by
    unfold takeHalt
    dsimp only [channelOf]
    split <;> rfl
  have hsnap : takeSnap a { s with due := d } = { takeSnap a s with due := d } := by
    unfold takeSnap
    dsimp only [channelOf]
    split
    · exact writeRecord_setDue _ d (setChannel a.channel _ s)
    · rfl
  unfold applyAction
  dsimp only [channelOf]
  split
  · split
    · exact harm
    · exact hhalt
    · exact hsnap
    · exact htakeCorrect _
    · rfl
    · rfl
  · rfl

theorem releaseOver_setReleasing (l : List PendingAction) (s : State) :
    releaseOver { s with due := { s.due with releasing := l } } = releaseOver s := rfl

/-- R84: a release takes the first action before the rest of the release. -/
theorem releaseDue_cons {a : PendingAction} {rest : List PendingAction} {s : State} (h : s.due.releasing = a :: rest) :
    releaseDue s = releaseDue (applyAction a { s with due := { s.due with releasing := rest } }) := by
  rw [applyAction_setDue]
  unfold releaseDue releaseOver
  rw [h]
  show applyAll rest (applyAction a _) = applyAll rest _
  rw [applyAction_setDue, applyAction_frame]

theorem partsWalk_iff (c : ChannelId) (left : List PendingAction) (s : State) (waiting : List Occurrence)
    (x : State × Option Occurrence) : partsWalk c left s waiting x = true ↔
      (∃ w ∈ waiting, w.channel = c ∧ disturbs c w s x.1 = true) ∨
        ∃ o, x.2 = some o ∧ disturbs c o x.1 ((left ++ waiting.flatMap (actionsAt c x.1)).foldl
          (fun u a => applyAction a u) x.1) = true := by
  simp [partsWalk, applyAll, Option.any_eq_true]

theorem takeMoment_left {left : List PendingAction} {p : State × List Occurrence} {m : ChannelMoment}
    (h : partsWalk (momentChannel m) left p.1 p.2 (momentEvent m p.1) = true) :
    takeMoment left p m = (leaveMoment m p.1, p.2) := if_pos h

theorem takeMoment_silent {left : List PendingAction} {p : State × List Occurrence} {m : ChannelMoment}
    (h : partsWalk (momentChannel m) left p.1 p.2 (momentEvent m p.1) = false) (hnone : (momentEvent m p.1).2 = none) :
    takeMoment left p m = ((momentEvent m p.1).1, p.2) := by
  rw [takeMoment, if_neg (by simp [h]), hnone]

theorem takeMoment_occurs {left : List PendingAction} {p : State × List Occurrence} {m : ChannelMoment} {o : Occurrence}
    (h : partsWalk (momentChannel m) left p.1 p.2 (momentEvent m p.1) = false) (hsome : (momentEvent m p.1).2 = some o) :
    takeMoment left p m =
      if placesAction o (momentEvent m p.1).1 = true ∨ ∃ w ∈ p.2, w.channel = o.channel then
        ((momentEvent m p.1).1, p.2 ++ [o])
      else (publishOccurrence o (momentEvent m p.1).1, p.2) := by
  rw [takeMoment, if_neg (by simp [h]), hsome]
  simp only [Bool.or_eq_true, List.any_eq_true, beq_iff_eq]

/-- Settles O35: without moments a release folds the actions; with them, each moment by its three outcomes. -/
theorem releaseAppliesInOrder : Obligations.ReleaseAppliesInOrder := by
  refine ⟨fun a rest s hreleasing hmoments => ?_, fun s hreleasing => ?_, fun s t hmoments hexec => ?_, fun s => ?_,
    fun s => rfl, fun a rest now more p => ⟨rfl, rfl, rfl⟩, fun o os s => ⟨rfl, rfl⟩,
    fun left c level s waiting x hx => ?_⟩
  · have hlater : (applyAction a { s with due := { s.due with releasing := rest } }).due.moments = [] := by
      rw [applyAction_frame]; exact hmoments
    rw [exec_release, exec_release, releaseAmong_nil _ hmoments, releaseAmong_nil _ hlater, releaseDue_cons hreleasing]
  · rw [exec_release, releaseAmong, hreleasing]
    show Host.Outcome.next (releaseOver s) = _
    rw [releaseOver, ← hreleasing]
  · rw [exec_release, releaseAmong_nil s hmoments] at hexec
    injection hexec with hexec
    rw [← hexec, releaseDue, applyAll_frame, releaseOver, ← hmoments]
  · have hover := (Within.releaseFrom s.due.releasing s.due.moments (releaseOver s, [])).trans (.publishWaiting _)
    exact ⟨releaseAmong s, rfl, hover.releasing rfl, hover.moments rfl⟩
  · obtain ⟨m, hm, hxm⟩ : ∃ m, momentChannel m = c ∧ x = (m, momentEvent m s, leaveMoment m s) := by
      simp only [List.mem_cons, List.not_mem_nil, or_false] at hx
      rcases hx with rfl | rfl
      · exact ⟨.tap c, rfl, rfl⟩
      · exact ⟨.pin c level, rfl, rfl⟩
    clear hx
    subst hm hxm
    intro t parts
    have hparts : partsWalk (momentChannel m) left s waiting (momentEvent m s) = true ↔ parts := partsWalk_iff ..
    have hnot (h : ¬ parts) : partsWalk (momentChannel m) left s waiting (momentEvent m s) = false :=
      Bool.eq_false_iff.2 fun h' => h (hparts.1 h')
    exact ⟨fun h => takeMoment_left (p := (s, waiting)) (hparts.2 h),
      fun h hnone => takeMoment_silent (p := (s, waiting)) (hnot h) hnone,
      fun o h hsome => takeMoment_occurs (p := (s, waiting)) (hnot h) hsome⟩

/-! ### Publishing (R112, R150, R152, R157) -/

/-- R157: the arbiter's order. -/
theorem arbiterOffer_eq {s : State} (hmuted : s.liu.muted = false) : arbiterOffer s =
    match s.pub.markSlot, s.pub.queue, s.pub.rollSlot with
      | some r, _, _ => some (.mark r.boundary)
      | none, _ :: _, _ => some .event
      | none, [], some _ => some .roll
      | none, [], none => none := by
  unfold arbiterOffer arbiterRest
  cases s.pub.markSlot <;> cases s.pub.queue <;> cases s.pub.rollSlot <;> simp [hmuted]

theorem arbiterOffer_of_muted {s : State} (hmuted : s.liu.muted = true) : arbiterOffer s = none := if_pos hmuted

theorem askArbiter_asks {s : State} (htx : s.liu.tx = .ready) (hrx : s.liu.rx = .waiting) (hoffer : s.liu.offer = none) :
    askArbiter s = { s with liu := { s.liu with offer := arbiterOffer s } } := if_pos ⟨htx, hrx, hoffer⟩

/-- R31: outside READY, a line that is idle or with an offer the arbiter is not asked; a muted station is offered nothing. -/
theorem askArbiter_idle {s : State}
    (h : s.liu.tx ≠ .ready ∨ s.liu.rx ≠ .waiting ∨ s.liu.offer ≠ none ∨ s.liu.muted = true) : askArbiter s = s := by
  by_cases hasks : s.liu.tx = .ready ∧ s.liu.rx = .waiting ∧ s.liu.offer = none
  · obtain ⟨htx, hrx, hoffer⟩ := hasks
    have hmuted : s.liu.muted = true := by
      rcases h with h | h | h | h
      · exact absurd htx h
      · exact absurd hrx h
      · exact absurd hoffer h
      · exact h
    rw [askArbiter_asks htx hrx hoffer, arbiterOffer_of_muted hmuted, ← hoffer]
  · exact if_neg hasks

/-- Settles O60: the occurrence's record and walk, the queue, the arbiter, and the three orders beside a release. -/
theorem occurrenceIsPublished : Obligations.OccurrenceIsPublished := by
  refine ⟨fun c flag r t value s => ⟨rfl, fun tag => ?_⟩, fun source tag t value s => ⟨fun hfull => ?_, fun hroom => ?_⟩,
    fun s htx hrx hoffer hmuted => ?_, fun s => askArbiter_idle, fun c event s => ⟨fun hnone => ?_, fun o hsome => ?_⟩,
    fun o s => rfl, fun c level s x hx => ?_⟩
  · have hid : (if flag then writeRecord r s else s).params = s.params := by cases flag <;> simp
    rw [← hid]
    rfl
  · exact if_neg (Nat.not_lt.2 hfull)
  · exact if_pos hroom
  · exact (askArbiter_asks htx hrx hoffer).trans
      (congrArg (fun offer => { s with liu := { s.liu with offer := offer } }) (arbiterOffer_eq hmuted))
  · rw [takeEventOf, hnone]
  · have htake : takeEventOf c event s =
        if s.due.releasing.isEmpty || !placesAction o (event s).1 then publishOccurrence o (event s).1
        else if disturbs c o (event s).1 (releaseDue (event s).1) then publishEvent (event (releaseDue s))
        else publishOccurrence o (releaseDue (event s).1) := by rw [takeEventOf, hsome]
    refine ⟨fun h => ?_, fun hdue hplaces hparts => ?_, fun hdue hplaces hparts => ?_⟩ <;> rw [htake]
    · exact if_pos (by rcases h with h | h <;> simp [h])
    · rw [if_neg (by simp [hdue, hplaces]), if_neg hparts]
    · rw [if_neg (by simp [hdue, hplaces]), if_pos hparts]
  · simp only [List.mem_cons, List.not_mem_nil, or_false] at hx
    obtain rfl | rfl | rfl | rfl | rfl | rfl | rfl | rfl | rfl := hx <;> rfl

end Sys2Proof.Machine
end

section
/-! The channel events: starts (R102), underflows by mode (R118, R122, R126, R129, R131), a run that qualifies (R145) and a
pin change (R111, R136, R144). -/

namespace Sys2Proof.Machine

-- Proofs elaborated side by side need more threads than the memory limit of the check holds.
set_option Elab.async false

/-! ### A channel event and what Publishing takes of it -/

/-- R84, R89: without a release that is still due, or without an occurrence, a channel event is published at once. -/
theorem takeEventOf_now {c : ChannelId} {event : State → State × Option Occurrence} {s : State}
    (h : s.due.releasing = [] ∨ (event s).2 = none) : takeEventOf c event s = publishEvent (event s) := by
  cases hevent : event s with
  | mk t occurrence =>
    cases occurrence with
    | none => exact takeEventOf_of_idle hevent
    | some o =>
      have hnone : s.due.releasing = [] := h.resolve_right (by simp [hevent])
      simp [takeEventOf, publishEvent, hevent, hnone]

theorem endOccurrence_eq {c : ChannelId} {s : State} {cfg : ChannelConfig} {t : Time}
    (hcfg : (channelOf s c).cfg = cfg) (htime : s.ftu.time = t) :
    endOccurrence c s = occur c (cfg.flags.getLsbD 1)
      { kind := .chEnd, time := t, channel := some c, tag := tagOf cfg.endTag } (tagOf cfg.endTag) t none s := by
  subst hcfg htime; rfl

theorem startOccurrence_eq {c : ChannelId} {shown : Half} {s : State} {cfg : ChannelConfig} {t : Time}
    (hcfg : (channelOf s c).cfg = cfg) (htime : s.ftu.time = t) :
    startOccurrence c shown s = occur c (cfg.flags.getLsbD 0)
      { kind := .chStart, time := t, channel := some c, tag := tagOf cfg.startTag,
        value := some (shown.setWidth 32) } (tagOf cfg.startTag) t none s := by
  subst hcfg htime; rfl

theorem inputOccurrence_eq {c : ChannelId} {kind : RecordKind} {shown : BitVec 32} {t : Time} {value : Option Half}
    {s : State} {cfg : ChannelConfig} (hcfg : (channelOf s c).cfg = cfg) :
    inputOccurrence c kind shown t value s = occur c (cfg.flags.getLsbD 2)
      { kind := kind, time := t, channel := some c, tag := tagOf cfg.inputTag, value := some shown } (tagOf cfg.inputTag)
      t value s := by
  subst hcfg; rfl

/-! ### Starts (R102, R143) -/

/-- R102: the start of a channel whose mode loads a register. -/
theorem startChannel_loads {c : ChannelId} {s : State} {register : Half} {state : ChannelState} {output : Bool}
    (hload : startLoad (channelOf s c) = some register)
    (henter : ∀ ch : Channel, ch.cfg.mode = (channelOf s c).cfg.mode →
      enterRunning s.ftu.time ch = { ch with state := state, output := output }) :
    startChannel c s =
      let ch := channelOf s c
      let x := (register.toNat : Int) + ch.held.getD 0
      let u := setChannel c
        { ch with counter := clampCounter x, held := none, state := state, output := output, tapDue := false } s
      startOccurrence c (clampCounter x) (if x < 0 ∨ 65535 < x then
        writeRecord { recordNow .clamped s with channel := some c, value := some (BitVec.ofInt 32 x) } u else u) := by
  simp only [startChannel, startCounter, hload, Option.map_some, startSum, ← isClamped_iff]
  rw [henter (tapTaken _)] <;> rfl

theorem startChannel_capture {c : ChannelId} {s : State} (h : isCaptureMode (channelOf s c).cfg.mode = true) :
    startChannel c s = startOccurrence c 0 (setChannel c
      { channelOf s c with counter := 0, wrap := 0, state := .counting, tapDue := false } s) := by
  unfold startChannel startCounter startLoad enterRunning
  cases hmode : (channelOf s c).cfg.mode <;> simp_all [isCaptureMode, tapTaken]

theorem startChannel_qualify {c : ChannelId} {s : State} (h : (channelOf s c).cfg.mode = .qualify) :
    startChannel c s = startOccurrence c (channelOf s c).counter (setChannel c
      (if (channelOf s c).sampled.any (isActiveLevel (channelOf s c).cfg) then
        { channelOf s c with state := .qualifying, counter := (channelOf s c).workA, runStart := s.ftu.time, tapDue := false }
      else { channelOf s c with state := .watching, tapDue := false }) s) := by
  simp [startChannel, startCounter, startLoad, enterRunning, isCaptureMode, tapTaken, beginRun, h]

theorem sampled_any_iff (cfg : ChannelConfig) (sampled : Option Bool) :
    sampled.any (isActiveLevel cfg) = true ↔ sampled = some (cfg.activeLevel != 0) := by
  cases sampled <;> simp [isActiveLevel_iff]

/-- R135: in COUNTING the row of the start takes the count that the tick left. -/
theorem startEvent_counts {c : ChannelId} {s : State} (htap : (channelOf s c).tapDue = true)
    (hstate : (channelOf s c).state = .counting) :
    startEvent c s = (setChannel c { channelOf s c with
      counter := (channelOf s c).counter + 1, tapDue := false
      wrap := if (channelOf s c).counter = 0xFFFF ∧ (channelOf s c).wrap ≠ 0xFF then (channelOf s c).wrap + 1
        else (channelOf s c).wrap } s, none) := by
  rw [startEvent_eq (.inr hstate), tapEvent_count htap (by simp [hstate]) (by simp [underflows, countsDown, hstate]),
    plainCount_up (ch := tapTaken (channelOf s c)) hstate]
  rfl

/-- Settles O56: the late count and the idle rows, then the start by mode. -/
theorem startInOrder : Obligations.StartInOrder := by
  constructor
  · intro c s ch
    refine ⟨fun htap hstate => congrArg Host.Outcome.next (takeEventOf_of_idle (startEvent_counts htap hstate)),
      fun hno => ?_⟩
    · have hevent : startEvent c s = (s, none) := by
        unfold startEvent
        refine if_neg fun ⟨htap, h⟩ => hno.elim (fun h' => by simp [ch, htap] at h') fun h' => h' (by simpa using h)
      exact congrArg Host.Outcome.next (takeEventOf_of_idle hevent)
  · intro c s ch htap hstate clamp clamped gives announce begin
    have gives_of {x : State × Option Occurrence} (h : startChannel c s = x) : gives x := by
      have hevent : startEvent c s = x := by rw [startEvent_eq (.inl hstate), tapEvent_start htap hstate, h]
      exact ⟨hevent, fun hidle => congrArg Host.Outcome.next ((takeEventOf_now (.inl hidle)).trans (by rw [hevent]))⟩
    clear_value gives
    have begins {register : Half} {state : ChannelState} {output : Bool} (hload : startLoad ch = some register)
        (henter : ∀ d : Channel, d.cfg.mode = ch.cfg.mode →
          enterRunning s.ftu.time d = { d with state := state, output := output }) : begin register state output := by
      refine gives_of ((startChannel_loads hload henter).trans ?_)
      exact startOccurrence_eq (by split <;> simp [ch]) (by split <;> simp)
    have enters {mode : Mode} (hmode : ch.cfg.mode = mode) {d : Channel} (hd : d.cfg.mode = ch.cfg.mode) :
        d.cfg.mode = mode := hd.trans hmode
    refine ⟨fun hmode => begins (by simp [startLoad, hmode]) fun d hd => by simp [enterRunning, enters hmode hd],
      fun hmode => begins (by simp [startLoad, hmode]) fun d hd => by simp [enterRunning, enters hmode hd],
      fun hmode => begins (by simp [startLoad, hmode]) fun d hd => by simp [enterRunning, enters hmode hd],
      fun hmode => begins (by simp [startLoad, hmode]) fun d hd => by simp [enterRunning, enters hmode hd],
      fun hmode => gives_of ?_, fun hmode => gives_of ?_⟩
    · exact (startChannel_capture (by rcases hmode with h | h <;> simp [ch] at h <;> simp [h, isCaptureMode])).trans
        (startOccurrence_eq (by simp [ch]) rfl)
    · refine (startChannel_qualify hmode).trans ((startOccurrence_eq (cfg := ch.cfg) ?_ rfl).trans ?_)
      · split <;> simp [ch]
      · simp only [sampled_any_iff]; rfl

/-! ### Underflows (R118, R122, R126, R129, R131, R145) -/

/-- A channel that counts down, at 0 and with its tap instant to take, underflows. -/
theorem underflows_at_zero {ch : Channel} (hdown : countsDown ch.state = true) (hzero : ch.counter = 0) :
    underflows ch = true := by simp [underflows, hdown, hzero]

/-- R99: above 0 the row of an underflow is the plain count. -/
theorem tapEvent_counts_down {c : ChannelId} {s : State} (htap : (channelOf s c).tapDue = true)
    (hdown : countsDown (channelOf s c).state = true) (hcounter : (channelOf s c).counter ≠ 0) :
    tapEvent c s = (setChannel c
      { channelOf s c with counter := (channelOf s c).counter - 1, tapDue := false } s, none) := by
  have hstart : (channelOf s c).state ≠ .starting := fun h => by rw [h] at hdown; exact Bool.noConfusion hdown
  rw [tapEvent_count htap hstart (Bool.and_eq_false_iff.2 (.inr (beq_false_of_ne hcounter))),
    plainCount_down (ch := tapTaken (channelOf s c)) hdown]
  rfl

/-- R116: the end occurrence of a channel whose settings stand, at the present T. -/
theorem endOccurrence_after {c : ChannelId} {s : State} {ch : Channel} (hcfg : ch.cfg = (channelOf s c).cfg) :
    endOccurrence c (setChannel c ch s) = occur c ((channelOf s c).cfg.flags.getLsbD 1)
      { kind := .chEnd, time := s.ftu.time, channel := some c, tag := tagOf (channelOf s c).cfg.endTag }
      (tagOf (channelOf s c).cfg.endTag) s.ftu.time none (setChannel c ch s) :=
  endOccurrence_eq (by rw [channelOf_setChannel_self, hcfg]) rfl

section AtZero
variable {c : ChannelId} {s : State} (htap : (channelOf s c).tapDue = true) (hzero : (channelOf s c).counter = 0)
include htap hzero

theorem tapEvent_active (h : (channelOf s c).state = .active) : tapEvent c s = pulseUnderflow c s := by
  simp [tapEvent, htap, h, underflows_at_zero (ch := channelOf s c) (by rw [h]; rfl) hzero]

theorem tapEvent_lead (h : (channelOf s c).state = .lead) : tapEvent c s = leadUnderflowOf c s := by
  simp [tapEvent, htap, h, underflows_at_zero (ch := channelOf s c) (by rw [h]; rfl) hzero]

theorem tapEvent_running (h : (channelOf s c).state = .running) : tapEvent c s = repeatUnderflowOf c s := by
  simp [tapEvent, htap, h, underflows_at_zero (ch := channelOf s c) (by rw [h]; rfl) hzero]

theorem tapEvent_phaseA (h : (channelOf s c).state = .phaseA) : tapEvent c s = phaseAUnderflowOf c s := by
  simp [tapEvent, htap, h, underflows_at_zero (ch := channelOf s c) (by rw [h]; rfl) hzero]

theorem tapEvent_phaseB (h : (channelOf s c).state = .phaseB) : tapEvent c s = periodBoundaryOf c s := by
  simp [tapEvent, htap, h, underflows_at_zero (ch := channelOf s c) (by rw [h]; rfl) hzero]

theorem tapEvent_qualifying (h : (channelOf s c).state = .qualifying) : tapEvent c s = qualifiedOf c s := by
  simp [tapEvent, htap, h, underflows_at_zero (ch := channelOf s c) (by rw [h]; rfl) hzero]

end AtZero

/-- R126: a REPEAT channel's output goes active without an occurrence. -/
theorem repeatUnderflowOf_idle {c : ChannelId} {s : State} (h : (channelOf s c).output = false) :
    repeatUnderflowOf c s = (setChannel c
      { channelOf s c with counter := (channelOf s c).workA, output := true, tapDue := false } s, none) := by
  simp [repeatUnderflowOf, tapTaken, h]

theorem repeatUnderflowOf_active {c : ChannelId} {s : State} (h : (channelOf s c).output = true) :
    repeatUnderflowOf c s = endOccurrence c (setChannel c
      { channelOf s c with counter := (channelOf s c).workA, output := false, tapDue := false } s) := by
  simp [repeatUnderflowOf, tapTaken, h]

/-- R131 step 1: what a ready pair leaves of the channel at its period boundary. -/
theorem takePair_eq (ch : Channel) : takePair ch = { ch with
    workA := if ch.pairReady then ch.stagedA.getD ch.workA else ch.workA
    workB := if ch.pairReady then ch.stagedB.getD ch.workB else ch.workB
    stagedA := if ch.pairReady then none else ch.stagedA
    stagedB := if ch.pairReady then none else ch.stagedB
    pairReady := false } := by
  unfold takePair
  cases ch with
  | mk => split <;> simp_all

/-- R110: an output channel's pin is at the idle level while the output is idle. -/
theorem pinDrive_output {ch : Channel} (h : ch.cfg.mode ∈ [Mode.oneShot, .delayed, .repeating, .paired]) :
    pinDrive ch = if xor (ch.cfg.idleLevel != 0) ch.output then .high else .low := by
  simp only [List.mem_cons, List.not_mem_nil, or_false] at h
  obtain h | h | h | h := h <;> simp only [pinDrive, h]

theorem pinDrive_input {ch : Channel} (h : ch.cfg.mode ∈ [Mode.captureFree, .captureClear, .qualify]) :
    pinDrive ch = .input := by
  simp only [List.mem_cons, List.not_mem_nil, or_false] at h
  obtain h | h | h := h <;> simp only [pinDrive, h]

/-- The states of the seven rows of underflows count down. -/
theorem countsDown_of_row {c : ChannelId} {x : Mode × ChannelState × Instr}
    (hx : x ∈ [(.oneShot, .active, .oneShotUnderflow c), (.delayed, .lead, .leadUnderflow c),
      (.delayed, .active, .delayedActiveUnderflow c), (.repeating, .running, .repeatUnderflow c),
      (.paired, .phaseA, .phaseAUnderflow c), (.paired, .phaseB, .periodBoundary c),
      (.qualify, .qualifying, .qualified c)]) : countsDown x.2.1 = true := by
  simp only [List.mem_cons, List.not_mem_nil, or_false] at hx
  obtain rfl | rfl | rfl | rfl | rfl | rfl | rfl := hx <;> rfl

/-- Settles O57: the pins by mode; the rows above 0 by the plain count; the underflows state by state. -/
theorem underflowsByMode : Obligations.UnderflowsByMode := by
  refine ⟨fun ch => ⟨fun hmode => ?_, pinDrive_input, fun hmode => by simp only [pinDrive, hmode]⟩, ?_, ?_⟩
  · rw [pinDrive_output hmode]
    exact ⟨fun h => by cases ch.output <;> simp [h], fun h => by cases ch.output <;> simp [h]⟩
  · intro c s x hx ch
    refine ⟨fun htap hmode hstate hcounter => ?_, fun hno => ?_⟩
    · have hdown : countsDown ch.state = true := by rw [hstate]; exact countsDown_of_row hx
      rw [exec_underflowRow hx]
      exact congrArg Host.Outcome.next
        (takeEventOf_of_idle ((tapEventIn_eq hmode hstate).trans (tapEvent_counts_down htap hdown hcounter)))
    · rw [exec_underflowRow hx]
      refine congrArg Host.Outcome.next (takeEventOf_of_idle (if_neg fun h => ?_))
      simp only [tapDueIn, Bool.and_eq_true, beq_iff_eq, and_assoc] at h
      obtain ⟨htap, hmode, hstate⟩ := h
      exact hno.elim (fun h => by simp [ch, htap] at h) fun h => h.elim (fun h => h hmode) fun h => h hstate
  · intro c s ch htap hzero ended a b pulse gives
    have gives_of {row : Instr} {x : State × Option Occurrence}
        (hrow : exec row s = .next (takeEventOf c (tapEventIn c ch.cfg.mode ch.state) s)) (h : tapEvent c s = x) :
        gives row x := by
      have hevent : tapEventIn c ch.cfg.mode ch.state s = x := (tapEventIn_eq rfl rfl).trans h
      refine ⟨hevent, fun hidle => ?_⟩
      rw [hrow, takeEventOf_now (by rw [hevent]; exact hidle), hevent]
    clear_value gives
    refine ⟨fun hmode hstate => gives_of (by rw [hmode, hstate]; rfl) ?_,
      fun hmode hstate => gives_of (by rw [hmode, hstate]; rfl) ?_,
      fun hmode hstate => gives_of (by rw [hmode, hstate]; rfl) (tapEvent_lead htap hzero hstate),
      fun hmode hstate => gives_of (by rw [hmode, hstate]; rfl) (tapEvent_phaseA htap hzero hstate),
      fun hmode hstate houtput => gives_of (by rw [hmode, hstate]; rfl) ?_,
      fun hmode hstate houtput => gives_of (by rw [hmode, hstate]; rfl) ?_,
      fun hmode hstate => gives_of (by rw [hmode, hstate]; rfl) ?_⟩
    · exact (tapEvent_active htap hzero hstate).trans (endOccurrence_after rfl)
    · exact (tapEvent_active htap hzero hstate).trans (endOccurrence_after rfl)
    · exact (tapEvent_running htap hzero hstate).trans (repeatUnderflowOf_idle houtput)
    · exact (tapEvent_running htap hzero hstate).trans ((repeatUnderflowOf_active houtput).trans (endOccurrence_after rfl))
    · rw [tapEvent_phaseB htap hzero hstate, periodBoundaryOf, takePair_eq]
      exact endOccurrence_after rfl

/-- Settles O58: the run's record and occurrence bear the run start time. -/
theorem qualifiedIsBackDated : Obligations.QualifiedIsBackDated := by
  intro c s ch htap hmode hstate hzero held
  have hevent : tapEventIn c .qualify .qualifying s = held :=
    (tapEventIn_eq hmode hstate).trans ((tapEvent_qualifying htap hzero hstate).trans
      (inputOccurrence_eq (by rw [channelOf_setChannel_self]; rfl)))
  exact ⟨hevent, fun hidle => congrArg Host.Outcome.next ((takeEventOf_now (.inl hidle)).trans (by rw [hevent]))⟩

/-! ### Pin changes (R110, R111, R136, R144) -/

theorem changeDue_iff (s : State) (c : ChannelId) : changeDue s c = true ↔
    isInputMode (channelOf s c).cfg.mode = true ∧ (channelOf s c).sampleOpen = true ∧
      (channelOf s c).sampled ≠ some (pinLevel s c) := by
  simp [changeDue, and_assoc]

theorem drivePin_pinLevel_self (c : ChannelId) (level : Bool) (s : State) : pinLevel (drivePin c level s) c = level :=
  (drivePin_getLsbD c c level s).trans (if_pos rfl)

/-- R111: where the sample can show no change, only the level outside is changed. -/
theorem pinEvent_stale {c : ChannelId} {level : Bool} {s : State}
    (h : ¬ (joined s = true ∧ (channelOf s c).sampleOpen = true ∧ (channelOf s c).sampled ≠ some level) ∨
      isInputMode (channelOf s c).cfg.mode = false) : pinEvent c level s = (drivePin c level s, none) := by
  unfold pinEvent sampleEvent
  split
  · next hjoined =>
    refine if_neg fun hdue => ?_
    obtain ⟨hmode, hopen, hchange⟩ := (changeDue_iff _ _).1 hdue
    rw [drivePin_pinLevel_self] at hchange
    exact h.elim (fun h => h ⟨hjoined, hopen, hchange⟩) fun h => Bool.eq_false_iff.1 h hmode
  · rfl

theorem pinEvent_fresh {c : ChannelId} {level : Bool} {s : State} (hjoined : joined s = true)
    (hopen : (channelOf s c).sampleOpen = true) (hchange : (channelOf s c).sampled ≠ some level)
    (hmode : isInputMode (channelOf s c).cfg.mode = true) :
    pinEvent c level s = takeSample c level (drivePin c level s) := by
  have hdue : changeDue (drivePin c level s) c = true :=
    (changeDue_iff _ _).2 ⟨hmode, hopen, by rw [drivePin_pinLevel_self]; exact hchange⟩
  rw [pinEvent, if_pos hjoined, sampleEvent, if_pos hdue, drivePin_pinLevel_self]

/-- R136: what an edge setting takes. -/
theorem edgeMatches_iff {setting : Byte} {level : Bool} (h : setting.toNat ≤ 2) : edgeMatches setting level = true ↔
    setting = 0 ∧ level = true ∨ setting = 1 ∧ level = false ∨ setting = 2 := by
  have hcases : setting = 0 ∨ setting = 1 ∨ setting = 2 := by
    simp only [← BitVec.toNat_inj]; simp; omega
  obtain rfl | rfl | rfl := hcases <;> simp [edgeMatches]

theorem takeSample_qualify {c : ChannelId} {level : Bool} {s : State} (hmode : (channelOf s c).cfg.mode = .qualify) :
    takeSample c level s =
      (setChannel c (followLevel s.ftu.time level (recordSample level (channelOf s c))) s, none) := by
  simp only [takeSample, hmode]

theorem takeSample_capture {c : ChannelId} {level : Bool} {s : State}
    (hmode : (channelOf s c).cfg.mode = .captureFree ∨ (channelOf s c).cfg.mode = .captureClear) :
    takeSample c level s =
      if (channelOf s c).sampled = some (!level) ∧ (channelOf s c).state = .counting ∧
          edgeMatches (channelOf s c).cfg.edge level = true then
        captureEdge c (setChannel c (recordSample level (channelOf s c)) s)
      else (setChannel c (recordSample level (channelOf s c)) s, none) := by
  rcases hmode with hmode | hmode <;> simp only [takeSample, hmode]

/-- R137: the record's value of a captured edge. -/
theorem wrap_append_counter (wrap : Byte) (counter : Half) :
    (wrap ++ counter).setWidth 32 = BitVec.ofNat 32 (wrap.toNat * 65536 + counter.toNat) := by
  apply BitVec.eq_of_toNat_eq
  have hcounter := counter.isLt
  rw [BitVec.toNat_setWidth, BitVec.toNat_append, BitVec.toNat_ofNat, Nat.shiftLeft_eq,
    Nat.mul_comm, ← Nat.two_pow_add_eq_or_of_lt hcounter]

/-- R136, R137: a captured edge, from a channel that has recorded the level. -/
theorem captureEdge_eq {c : ChannelId} {level : Bool} {s : State} (ch : Channel) :
    captureEdge c (setChannel c (recordSample level ch) s) = occur c (ch.cfg.flags.getLsbD 2)
      { kind := .capture, time := s.ftu.time, channel := some c, tag := tagOf ch.cfg.inputTag,
        value := some (BitVec.ofNat 32 (ch.wrap.toNat * 65536 + ch.counter.toNat)) }
      (tagOf ch.cfg.inputTag) s.ftu.time (some ch.counter)
      (setChannel c { ch with
        sampled := some level, sampleOpen := false, measureValue := ch.counter, measureTime := s.ftu.time
        counter := if ch.cfg.mode = .captureClear then 0 else ch.counter
        wrap := if ch.cfg.mode = .captureClear then 0 else ch.wrap } s) := by
  have hlatch : latchEdge s.ftu.time (recordSample level ch) = { ch with
      sampled := some level, sampleOpen := false, measureValue := ch.counter, measureTime := s.ftu.time
      counter := if ch.cfg.mode = .captureClear then 0 else ch.counter
      wrap := if ch.cfg.mode = .captureClear then 0 else ch.wrap } := by
    unfold latchEdge recordSample
    split <;> simp_all
  rw [captureEdge, channelOf_setChannel_self, setChannel_setChannel, setChannel_ftu, hlatch]
  refine (inputOccurrence_eq (cfg := ch.cfg) (by rw [channelOf_setChannel_self])).trans ?_
  rw [← wrap_append_counter]
  rfl

/-- Settles O59: by whether the sample can show the change, the mode, and the channel's state. -/
theorem pinChangeIsTaken : Obligations.PinChangeIsTaken := by
  intro c level s pins u ch seen fresh active edge run
  have run_of {t : State} (h : pinEvent c level s = (t, none)) : run t :=
    congrArg Host.Outcome.next (takeEventOf_of_idle h)
  have run_event {x : State × Option Occurrence} (h : pinEvent c level s = x) (hidle : s.due.releasing = []) :
      run (publishEvent x) :=
    congrArg Host.Outcome.next ((takeEventOf_now (.inl hidle)).trans (by rw [h]))
  have takes (hfresh : fresh) (hmode : isInputMode ch.cfg.mode = true) : pinEvent c level s = takeSample c level u :=
    pinEvent_fresh hfresh.1 hfresh.2.1 hfresh.2.2 hmode
  clear_value run
  have captures (hmode : ch.cfg.mode = .captureFree ∨ ch.cfg.mode = .captureClear) : isInputMode ch.cfg.mode = true := by
    obtain h | h := hmode <;> rw [h] <;> rfl
  have follows {d : Channel} (hfresh : fresh) (hmode : ch.cfg.mode = .qualify)
      (h : followLevel s.ftu.time level seen = d) : run (setChannel c d u) :=
    run_of ((takes hfresh (by rw [hmode]; rfl)).trans ((takeSample_qualify (s := u) hmode).trans
      (congrArg (fun d => (setChannel c d u, none)) h)))
  refine ⟨fun i => drivePin_getLsbD c i level s, fun hstale => run_of (pinEvent_stale (.inl hstale)),
    fun _ hmode => run_of (pinEvent_stale (.inr ?_)), fun hfresh hmode hedges => ⟨fun hno => run_of ?_, fun hstate hedge => ?_⟩,
    fun hfresh hmode => ⟨fun hstate hactive => follows hfresh hmode ?_, fun hstate hactive => follows hfresh hmode ?_,
      fun hno hno' => follows hfresh hmode ?_⟩⟩
  · change isInputMode ch.cfg.mode = false
    simp only [List.mem_cons, List.not_mem_nil, or_false] at hmode
    obtain h | h | h | h | h := hmode <;> rw [h] <;> rfl
  · rw [takes hfresh (captures hmode), takeSample_capture (s := u) hmode]
    exact if_neg fun ⟨hchange, hstate, hedge⟩ => hno ⟨hstate, hchange, (edgeMatches_iff hedges).1 hedge⟩
  · intro cleared captured
    have hevent : pinEvent c level s = captured := by
      rw [takes hfresh (captures hmode), takeSample_capture (s := u) hmode]
      exact (if_pos ⟨hedge.1, hstate, (edgeMatches_iff hedges).2 hedge.2⟩).trans (captureEdge_eq ch)
    exact ⟨hevent, run_event hevent⟩
  · exact followLevel_begins hstate ((isActiveLevel_iff _ _).2 hactive)
  · exact followLevel_ends hstate ((isActiveLevel_eq_false_iff _ _).2 hactive)
  · exact followLevel_stays (fun h => hno ⟨h.1, (isActiveLevel_iff _ _).1 h.2⟩)
      fun h => hno' ⟨h.1, (isActiveLevel_eq_false_iff _ _).1 h.2⟩

end Sys2Proof.Machine
end

section
/-! Arrivals: the upkeep of the roster (R46, R47), events (R54 to R58), rolls (R52), and marks at the FTU (R9, R11, R12, R14,
R16 to R19). -/

namespace Sys2Proof.Machine

-- Proofs elaborated side by side need more threads than the memory limit of the check holds.
set_option Elab.async false

/-! ### Upkeep (R46, R47) -/

theorem rosterEntry_eq_none_iff {s : State} {origin : StationId} :
    rosterEntry s origin = none ↔ ∀ e ∈ s.roster, e.origin ≠ origin := by
  simp [rosterEntry]

theorem hearPeer_listed {origin : StationId} {s : State} (h : ∃ e ∈ s.roster, e.origin = origin) :
    hearPeer origin s = updateEntry origin (fun e => { e with lastHeard := epochOf s.params.k s.ftu.time }) s :=
  if_pos (rosterEntry_isSome_iff.2 h)

theorem hearPeer_unlisted {origin : StationId} {s : State} (h : ∀ e ∈ s.roster, e.origin ≠ origin) :
    hearPeer origin s = if s.roster.length < 32 then
      writeRecord { recordNow .peerJoined s with origin := some origin }
        { s with roster := insertEntry (newEntry origin (epochOf s.params.k s.ftu.time)) s.roster }
    else s := by
  have hnone : ¬ (rosterEntry s origin).isSome = true := by rw [rosterEntry_eq_none_iff.2 h]; exact Bool.false_ne_true
  exact if_neg hnone

/-- Settles O47: by whether the roster has an entry, and room for one. -/
theorem peerUpkeep : Obligations.PeerUpkeep := by
  intro origin s hsorted epoch
  refine ⟨hearPeer_listed, fun hne hroom => ?_, fun hne hfull => ?_⟩
  · obtain ⟨front, back, hsplit, hinsert, hfront, hback⟩ := insertEntry_parts (newEntry origin epoch) s.roster hne hsorted
    refine ⟨front, back, hsplit, hfront, hback, ?_⟩
    rw [hearPeer_unlisted hne, if_pos hroom]
    exact congrArg (fun l => writeRecord _ { s with roster := l }) hinsert
  · rw [hearPeer_unlisted hne, if_neg (Nat.not_lt.2 hfull)]

/-! ### Delivery to a peer's branch (R41) -/

theorem deliver_peer {f : Frame} {s : State} (own peer : State → State) (hjoined : joined s = true)
    (hrx : s.liu.rx = .taking) (htx : s.liu.tx = .ready) (hf : frameWellFormed f = true) (hid : f.origin ≠ s.params.id) :
    deliver f own peer s = peer (frameReceived s) := by
  rw [deliver_of_wellFormed own peer ((receiving_iff s).2 ⟨hjoined, hrx, htx⟩) hf, if_neg hid]

/-! ### Events (R54 to R58) -/

/-- R55: the rows of the judgement. -/
theorem judgeEvent_same (restart : Bool) (sequence : Byte) : judgeEvent restart sequence (some sequence) = .duplicate :=
  if_pos rfl

theorem judgeEvent_restart {sequence last : Byte} (h : sequence ≠ last) : judgeEvent true sequence (some last) = .accepted := by
  simp [judgeEvent, h]

theorem judgeEvent_ahead {sequence last : Byte} (hlow : 1 ≤ (sequence - last).toNat) (hhigh : (sequence - last).toNat ≤ 127) :
    judgeEvent false sequence (some last) = .accepted := by
  have hne : sequence ≠ last := by rintro rfl; simp at hlow
  simp only [judgeEvent, if_neg hne, Bool.false_eq_true, if_false, if_pos hhigh]

theorem judgeEvent_behind {sequence last : Byte} (h : 128 ≤ (sequence - last).toNat) :
    judgeEvent false sequence (some last) = .stale := by
  have hne : sequence ≠ last := by rintro rfl; simp at h
  have hfar : ¬ (sequence - last).toNat ≤ 127 := by omega
  simp only [judgeEvent, if_neg hne, Bool.false_eq_true, if_false, if_neg hfar]

theorem isTimed_iff (e : EventFields) (s : State) :
    isTimed e s = true ↔ e.timed = true ∧ (s.ftu.station = .synced ∨ s.ftu.station = .holdover) := by
  rw [isTimed, Bool.and_eq_true, lockedOn_iff]

/-- R54 step 4, R57: an accepted event. -/
theorem acceptEvent_eq (origin : StationId) (e : EventFields) (s : State) :
    acceptEvent origin e s =
      let timed := e.timed = true ∧ (s.ftu.station = .synced ∨ s.ftu.station = .holdover)
      walkNotice { origin := origin, sequence := some e.sequence, tag := e.tag, value := e.value,
                   reference := if timed then e.occurrence else s.ftu.time }
        (releaseDue { s with
          roster := s.roster.map fun x => if x.origin = origin then { x with lastSequence := some e.sequence } else x
          counters := if timed then s.counters else { s.counters with untimed := satInc s.counters.untimed } }) := by
  unfold acceptEvent eventNotice
  by_cases h : isTimed e s = true
  · simp only [if_pos h, if_pos ((isTimed_iff e s).1 h)]; rfl
  · simp only [if_neg h, if_neg (mt (isTimed_iff e s).2 h)]; rfl

theorem takeEvent_unlisted {origin : StationId} {e : EventFields} {s : State}
    (h : rosterEntry (hearPeer origin s) origin = none) :
    takeEvent origin e s = count (fun c => { c with unlisted := satInc c.unlisted }) (hearPeer origin s) := by
  simp only [takeEvent, h]

section Listed
variable {origin : StationId} {e : EventFields} {s : State} {x : RosterEntry}
  (hx : rosterEntry (hearPeer origin s) origin = some x)
include hx

theorem takeEvent_accepted (h : judgeEvent e.restart e.sequence x.lastSequence = .accepted) :
    takeEvent origin e s = acceptEvent origin e (hearPeer origin s) := by
  simp only [takeEvent, hx, h]

theorem takeEvent_duplicate (h : judgeEvent e.restart e.sequence x.lastSequence = .duplicate) :
    takeEvent origin e s = count (fun c => { c with duplicates := satInc c.duplicates }) (hearPeer origin s) := by
  simp only [takeEvent, hx, h]

theorem takeEvent_stale (h : judgeEvent e.restart e.sequence x.lastSequence = .stale) :
    takeEvent origin e s = count (fun c => { c with stale := satInc c.stale }) (hearPeer origin s) := by
  simp only [takeEvent, hx, h]

end Listed

/-- Settles O48: unlisted, and then by the judgement of R55. -/
theorem eventIsJudged : Obligations.EventIsJudged := by
  intro origin e s hjoined hrx htx hvalid hrepeat hid u c timed notice accepted
  have hu : u = hearPeer origin (frameReceived s) := rfl
  have hexec {t : State} (h : takeEvent origin e (frameReceived s) = t) : exec (.eventArrival origin e) s = .next t := by
    rw [exec_eventArrival, execEventArrival,
      deliver_peer _ _ hjoined hrx htx ((frameWellFormed_event_iff origin e).2 ⟨hvalid, hrepeat⟩) hid, h]
  have hftu : u.ftu = s.ftu := hearPeer_ftu ..
  clear_value u
  subst hu
  refine ⟨fun hne => hexec (takeEvent_unlisted (rosterEntry_eq_none_iff.2 hne)), fun x hx => ?_⟩
  have haccepted (hjudge : judgeEvent e.restart e.sequence x.lastSequence = .accepted) :
      accepted (hearPeer origin (frameReceived s)) := by
    refine hexec ((takeEvent_accepted hx hjudge).trans ((acceptEvent_eq origin e _).trans ?_))
    rw [hftu]
  clear_value accepted
  refine ⟨fun hlast => haccepted (by rw [hlast]; rfl), fun last hlast hsame => hexec ?_, fun last hlast hne hrestart => ?_,
    fun last hlast hrestart hlow hhigh => ?_, fun last hlast hrestart hbehind => hexec ?_⟩
  · exact takeEvent_duplicate hx (by rw [hlast, hsame]; exact judgeEvent_same ..)
  · exact haccepted (by rw [hlast, hrestart]; exact judgeEvent_restart hne)
  · exact haccepted (by rw [hlast, hrestart]; exact judgeEvent_ahead hlow hhigh)
  · exact takeEvent_stale hx (by rw [hlast, hrestart]; exact judgeEvent_behind hbehind)

/-! ### Rolls (R52) -/

theorem takeRoll_listed {origin : StationId} {r : RollFields} {s : State}
    (h : ∃ e ∈ (hearPeer origin s).roster, e.origin = origin) :
    takeRoll origin r s = updateEntry origin (fun e => { e with reported := some (reportedBy r) }) (hearPeer origin s) :=
  if_pos (rosterEntry_isSome_iff.2 h)

theorem takeRoll_unlisted {origin : StationId} {r : RollFields} {s : State}
    (h : ∀ e ∈ (hearPeer origin s).roster, e.origin ≠ origin) :
    takeRoll origin r s =
      writeRecord { recordNow .rosterFull (hearPeer origin s) with origin := some origin } (hearPeer origin s) := by
  have hnone : ¬ (rosterEntry (hearPeer origin s) origin).isSome = true := by
    rw [rosterEntry_eq_none_iff.2 h]; exact Bool.false_ne_true
  exact if_neg hnone

/-- R27: a sync state field and the state that it reports. -/
theorem stateOfSync_of_mem {code : BitVec 3} {state : StationState}
    (h : (code, state) ∈ [((1 : BitVec 3), StationState.listening), (2, .synced), (3, .holdover), (4, .discord)]) :
    stateOfSync code = state ∧ 1 ≤ code.toNat ∧ code.toNat ≤ 4 := by
  simp only [List.mem_cons, Prod.mk.injEq, List.not_mem_nil, or_false] at h
  obtain ⟨rfl, rfl⟩ | ⟨rfl, rfl⟩ | ⟨rfl, rfl⟩ | ⟨rfl, rfl⟩ := h <;> decide

/-- Settles O49: by whether the roster has an entry after the upkeep. -/
theorem rollReports : Obligations.RollReports := by
  intro origin r s hjoined hrx htx hvalid hid hsize hoccupancy u
  have hexec (hlow : 1 ≤ r.syncState.toNat) (hhigh : r.syncState.toNat ≤ 4) {t : State}
      (h : takeRoll origin r (frameReceived s) = t) : exec (.rollArrival origin r) s = .next t := by
    have hf := (frameWellFormed_roll_iff origin r).2 ⟨hvalid, hlow, hhigh, hsize, hoccupancy⟩
    rw [exec_rollArrival, execRollArrival, deliver_peer _ _ hjoined hrx htx hf hid, h]
  refine ⟨fun hne hlow hhigh => hexec hlow hhigh ((takeRoll_unlisted hne).trans ?_), fun state hstate hlisted => ?_⟩
  · rw [recordNow, hearPeer_ftu]
  · obtain ⟨hreports, hlow, hhigh⟩ := stateOfSync_of_mem hstate
    exact hexec hlow hhigh ((takeRoll_listed hlisted).trans (by rw [reportedBy, hreports]; rfl))

/-! ### Hard sets (R11, R12, R19) -/

/-- R88: the flush of a schedule is counted if there was one. -/
theorem flushSchedule_empty {s : State} (h : s.schedule = []) : flushSchedule s = { s with schedule := [] } := by
  rw [flushSchedule, if_pos (by rw [h]; rfl), ← h]

theorem flushSchedule_waiting {s : State} (h : s.schedule ≠ []) : flushSchedule s =
    writeRecord { kind := .flushed, time := s.ftu.time, value := some (BitVec.ofNat 32 s.schedule.length) }
      { s with schedule := [] } := if_neg (by simpa using h)

/-- R11: what a hard set makes of the state, before the station state and its counts are set. -/
theorem setFtu_hardSet (f : Ftu → Ftu) (m : MarkFields) (s : State) :
    let r := markReference s.params m
    let u := { s with
      ftu := f { s.ftu with time := r, stall := 0, marker := some m.boundary }
      schedule := []
      roster := s.roster.map fun e => { e with lastHeard := r >>> s.params.k.toNat } }
    setFtu f (hardSet m s) = if s.schedule = [] then u else
      writeRecord { kind := .flushed, time := r, value := some (BitVec.ofNat 32 s.schedule.length) } u := by
  intro r u
  by_cases h : s.schedule = []
  · rw [hardSet, flushSchedule_empty (s := setFtu _ s) h, if_pos h]; rfl
  · rw [hardSet, flushSchedule_waiting (s := setFtu _ s) h, if_neg h, writeRecord_eq, writeRecord_eq]; rfl

/-- Settles O43: the hard set, and the count of the spell. -/
theorem hardSetTakesMarkTime : Obligations.HardSetTakesMarkTime := by
  intro origin m s r u v
  have hset : setFtu (fun f => { f with discordCount := 0, holdoverCount := 0, station := .synced }) (hardSet m s) = v :=
    setFtu_hardSet _ m s
  have htime : (hardSet m s).ftu.time = r := by rw [hardSet_ftu]; rfl
  refine ⟨?_, fun hcount => ?_, fun hcount => if_pos (by simp [Config.resyncCount]; omega)⟩
  · rw [adopt, hset, syncedRecord, recordNow, ← hset, setFtu_ftu]
    exact congrArg (fun t => writeRecord { kind := .synced, time := t, origin := some origin } _) htime
  · have hresync : countDiscord origin m s = resync origin m s := if_neg (by rw [hcount]; decide)
    rw [hresync, resync, ← hset]
    simp only [writeRecord_eq, recordNow, htime]
    rfl

/-! ### Marks in and out of the window (R14 to R18) -/

theorem followOffset_eq (d : Int) (order : MarkOrder) (s : State) : followOffset d order s =
    let u := { s with ftu := { s.ftu with stall := if d < 0 then BitVec.ofNat 16 d.natAbs else 0 } }
    if 0 < d then forwardStep d.natAbs order u else u := rfl

/-- R14 step 3: the own request for the mark's boundary is withdrawn, and no other. -/
theorem withdrawSame_same {boundary : Time} {s : State} (h : (s.pub.markSlot.any fun r => r.boundary == boundary) = true) :
    withdrawSame boundary s = withdrawMark s := by
  obtain ⟨r, hslot, hsame⟩ := (Option.any_eq_true _ _).1 h
  simp only [withdrawSame, hslot, if_pos (beq_iff_eq.1 hsame)]

theorem withdrawSame_other {boundary : Time} {s : State} (h : (s.pub.markSlot.any fun r => r.boundary == boundary) = false) :
    withdrawSame boundary s = s := by
  unfold withdrawSame
  split
  · next r hslot =>
    rw [hslot] at h
    exact if_neg (by simpa using h)
  · rfl

theorem withdrawSame_eq (boundary : Time) (s : State) : withdrawSame boundary s =
    let same := s.pub.markSlot.any fun r => r.boundary == boundary
    { s with
      pub := { s.pub with markSlot := if same then none else s.pub.markSlot }
      liu := { s.liu with attempt := if same then s.liu.attempt.map fun a =>
        if a.item = .mark then { a with pending := false } else a else s.liu.attempt } } := by
  dsimp only
  cases h : s.pub.markSlot.any fun r => r.boundary == boundary with
  | true => rw [withdrawSame_same h, withdrawMark_eq]; rfl
  | false => rw [withdrawSame_other h]; rfl

theorem leaveHoldover_of_synced {origin : StationId} {s : State} (h : s.ftu.station = .synced) : leaveHoldover origin s = s :=
  if_neg (by simp [h])

theorem leaveHoldover_of_holdover {origin : StationId} {s : State} (h : s.ftu.station = .holdover) :
    leaveHoldover origin s = writeRecord (syncedRecord origin (some (s.ftu.holdoverCount.setWidth 32)) s)
      (setFtu (fun f => { f with station := .synced, holdoverCount := 0 }) s) := if_pos h

/-- Settles O44: the five steps of an in-window mark by station state, and the spell's begin and end. -/
theorem markInOrOutOfWindow : Obligations.MarkInOrOutOfWindow := by
  intro origin m order s d lost synced same u after
  refine ⟨fun hs => ?_, fun hs => ?_, fun hs => ?_, inWindow_iff s m, rfl⟩
  · rw [followMark, leaveHoldover_of_synced (s := setFtu (fun f => { f with marker := some m.boundary }) s) hs,
      followOffset_eq, withdrawSame_eq]
    refine congrArg after ?_
    simp only [u, synced, ← hs]
    rfl
  · rw [followMark, leaveHoldover_of_holdover (s := setFtu (fun f => { f with marker := some m.boundary }) s) hs,
      followOffset_eq, withdrawSame_eq]
    refine congrArg after ?_
    simp only [writeRecord_eq]
    rfl
  · rw [endDiscord, followOffset_eq]
    refine congrArg after ?_
    simp only [writeRecord_eq]
    rfl

/-! ### A mark among what the present instant has left (R4, R16, R18, R22, R41) -/

/-- What a mark will do is judged by the FTU's items and the parameters alone. -/
theorem inWindow_congr {s t : State} (hftu : t.ftu = s.ftu) (hparams : t.params = s.params) (m : MarkFields) :
    inWindow t m = inWindow s m := by
  rw [inWindow, inWindow, markOffset, markOffset, hftu, hparams]

theorem hardSets_congr {s t : State} (hftu : t.ftu = s.ftu) (hparams : t.params = s.params) (m : MarkFields) :
    hardSets t m = hardSets s m := by
  rw [hardSets, hardSets, inWindow_congr hftu hparams, hftu]

theorem willStall_congr {s t : State} (hftu : t.ftu = s.ftu) (hparams : t.params = s.params) (m : MarkFields) :
    willStall t m = willStall s m := by
  rw [willStall, willStall, inWindow_congr hftu hparams, markOffset, markOffset, hftu, hparams]

theorem hardSets_iff (s : State) (m : MarkFields) : hardSets s m = true ↔ s.ftu.station = .listening ∨
    s.ftu.station = .discord ∧ inWindow s m = false ∧ 2 ≤ s.ftu.discordCount.toNat := by
  unfold hardSets
  cases s.ftu.station <;> simp [Config.resyncCount]

theorem willStall_iff (s : State) (m : MarkFields) : willStall s m = true ↔
    s.ftu.station ∈ [.synced, .holdover, .discord] ∧ markOffset s m < 0 ∧
      -(s.params.window.toNat : Int) ≤ markOffset s m := by
  have hwindow : inWindow s m = true ∧ markOffset s m < 0 ↔
      markOffset s m < 0 ∧ -(s.params.window.toNat : Int) ≤ markOffset s m := by
    rw [inWindow_iff]; omega
  unfold willStall
  rw [Bool.and_eq_true, Bool.and_eq_true, decide_eq_true_iff, hwindow]
  cases s.ftu.station <;> simp

theorem boundaryOfSpell_eq (m : MarkFields) (s : State) : boundaryOfSpell m s =
    if s.ftu.station = .discord ∧ inWindow s m = true then takeBoundary s else s := by
  simp only [boundaryOfSpell, endsDiscord, Bool.and_eq_true, beq_iff_eq]

theorem boundaryOfSpell_keeps (m : MarkFields) (s : State) :
    (boundaryOfSpell m s).ftu = s.ftu ∧ (boundaryOfSpell m s).params = s.params ∧
      (boundaryOfSpell m s).due.midEpoch = s.due.midEpoch := by
  rw [boundaryOfSpell_eq]
  split
  · next h =>
    obtain ⟨hftu, _, hmid, _⟩ := takeBoundary_of_discord h.1
    exact ⟨hftu, (Reaches.takeBoundary s).params, hmid⟩
  · exact ⟨rfl, rfl, rfl⟩

theorem takeMidEpoch_of_notDue {rosterFirst : Bool} {s : State} (h : s.due.midEpoch = false) :
    takeMidEpoch rosterFirst s = s := if_neg (by simp [h])

/-- R16, R20: a stall comes after the mid-epoch instant, which the mark satisfies first where it names its boundary. -/
theorem judgeBeforeStall_due {m : MarkFields} {agingFirst : Bool} {s : State} (h : s.due.midEpoch = true) :
    judgeBeforeStall m agingFirst s = midEpochAt s.ftu.time agingFirst { s with
      ftu := { s.ftu with marker :=
        if m.boundary = s.ftu.time - (1#32 <<< s.params.k.toNat) >>> 1 then some m.boundary else s.ftu.marker }
      due := { s.due with midEpoch := false } } := by
  rw [judgeBeforeStall, if_pos h, takeMidEpoch, if_pos (by split <;> exact h)]
  unfold epochLength
  split <;> rfl

theorem judgeBeforeStall_idle {m : MarkFields} {agingFirst : Bool} {s : State} (h : s.due.midEpoch = false) :
    judgeBeforeStall m agingFirst s = s := if_neg (by simp [h])

/-- R46, R47: what the upkeep leaves of a state. -/
theorem hearPeer_due (origin : StationId) (s : State) : (hearPeer origin s).due = s.due := by rw [hearPeer_frame]

/-- Settles O42: the branch of the FTU by the station state, and what comes before the mark by what the mark will do. -/
theorem markIsDelivered : Obligations.MarkIsDelivered := by
  intro origin m order s hjoined hrx htx hvalid hid u base v d judged stalls here
  have hbaseftu : base.ftu = s.ftu := by
    simp only [base]
    split
    · exact hearPeer_ftu ..
    · rfl
  have hbaseparams : base.params = s.params := by
    simp only [base]
    split
    · exact hearPeer_params ..
    · rfl
  have hbasedue : base.due = s.due := by
    simp only [base]
    split
    · exact hearPeer_due ..
    · rfl
  have hhere : here = boundaryOfSpell m base := by
    rw [boundaryOfSpell_eq, inWindow_congr hbaseftu hbaseparams, hbaseftu]
  have hhard : hardSets base m = hardSets s m := hardSets_congr hbaseftu hbaseparams m
  have hstalls : willStall base m = true ↔ stalls := by
    rw [willStall_congr hbaseftu hbaseparams, willStall_iff]; rfl
  obtain ⟨hhereftu, hhereparams, hheremid⟩ := boundaryOfSpell_keeps m base
  rw [← hhere, hbaseftu] at hhereftu
  rw [← hhere, hbaseparams] at hhereparams
  rw [← hhere, hbasedue] at hheremid
  refine ⟨ftuTakesMark origin m order base, ?_, fun hv => ?_, fun hv hin => ?_, fun hv hout => ?_, fun hv hin => ?_,
    fun hv hout => ?_, hardSets_iff s m, fun h => ?_, fun h hstall hmid => ?_, fun h hnot => ?_, fun hs hin => ?_⟩
  · rw [exec_markArrival, execMarkArrival,
      deliver_peer _ _ hjoined hrx htx ((frameWellFormed_mark_iff origin m).2 hvalid) hid, takeMark]
    simp only [base]
    split <;> rfl
  · simp only [ftuTakesMark, show (beforeMark m order base).ftu.station = _ from hv]; rfl
  · rcases hv with hv | hv <;>
      simp only [ftuTakesMark, show (beforeMark m order base).ftu.station = _ from hv,
        if_pos (show inWindow (beforeMark m order base) m = true from hin)] <;> rfl
  · have hnot : ¬ inWindow (beforeMark m order base) m = true := Bool.eq_false_iff.1 hout
    rcases hv with hv | hv <;>
      simp only [ftuTakesMark, show (beforeMark m order base).ftu.station = _ from hv, if_neg hnot] <;> rfl
  · simp only [ftuTakesMark, show (beforeMark m order base).ftu.station = _ from hv,
      if_pos (show inWindow (beforeMark m order base) m = true from hin)]; rfl
  · have hnot : ¬ inWindow (beforeMark m order base) m = true := Bool.eq_false_iff.1 hout
    simp only [ftuTakesMark, show (beforeMark m order base).ftu.station = _ from hv, if_neg hnot]; rfl
  · exact if_pos (hhard.trans h)
  · refine (if_neg (by rw [hhard, h]; exact Bool.false_ne_true)).trans ((if_pos (hstalls.2 hstall)).trans ?_)
    rw [← hhere, judgeBeforeStall_due (hheremid.trans hmid), hhereftu, hhereparams]
  · refine (if_neg (by rw [hhard, h]; exact Bool.false_ne_true)).trans ?_
    rw [← hhere]
    split
    · next hstall =>
      exact judgeBeforeStall_idle (hheremid.trans (Bool.eq_false_iff.2 fun hmid => hnot ⟨hstalls.1 hstall, hmid⟩))
    · rfl
  · have hbase : base.ftu.station = .discord := by rw [hbaseftu]; exact hs
    obtain ⟨hftu, hpub, _, hdue⟩ := takeBoundary_of_discord hbase
    have htakes : here = takeBoundary base := if_pos ⟨hs, hin⟩
    rw [htakes]
    exact ⟨hftu, hpub, hdue⟩

end Sys2Proof.Machine
end

section
/-! The bits of the line: fields (R27), fill bits (R29), the check (R30), and what the receiver makes of the levels of a frame
(R28, R38 to R40). -/

namespace Sys2Proof.Machine

-- Proofs elaborated side by side need more threads than the memory limit of the check holds.
set_option Elab.async false

/-! ### The bits of a field (R27) -/

@[simp] theorem length_bitsOf {w : Nat} (x : BitVec w) : (bitsOf x).length = w := by simp [bitsOf]

theorem drop_bitsOf {w n : Nat} (x : BitVec w) (h : w ≤ n) : (bitsOf x).drop n = [] :=
  List.drop_of_length_le (by rw [length_bitsOf]; exact h)

theorem getElem?_bitsOf {w : Nat} (x : BitVec w) {i : Nat} (h : i < w) :
    (bitsOf x)[i]? = some (x.getLsbD (w - 1 - i)) := by
  simp [bitsOf, BitVec.getMsbD, h]

theorem natOfBits_append (l : List LineBit) (b : LineBit) : natOfBits (l ++ [b]) = 2 * natOfBits l + b.toNat := by
  simp [natOfBits]

/-- The first i bits of a field are its value without the others. -/
theorem natOfBits_take {w : Nat} (x : BitVec w) {i : Nat} (h : i ≤ w) :
    natOfBits ((bitsOf x).take i) = x.toNat / 2 ^ (w - i) := by
  induction i with
  | zero =>
    rw [List.take_zero, Nat.sub_zero, Nat.div_eq_of_lt x.isLt]; rfl
  | succ i ih =>
    rw [List.take_add_one, getElem?_bitsOf x (by omega), Option.toList_some, natOfBits_append, ih (by omega),
      BitVec.getLsbD, Nat.toNat_testBit]
    have hdiv : x.toNat / 2 ^ (w - i) = x.toNat / 2 ^ (w - 1 - i) / 2 := by
      rw [Nat.div_div_eq_div_mul, ← Nat.pow_succ]; congr 2; omega
    have hexp : w - (i + 1) = w - 1 - i := by omega
    rw [hdiv, hexp]
    omega

theorem natOfBits_bitsOf {w : Nat} (x : BitVec w) : natOfBits (bitsOf x) = x.toNat := by
  have h := natOfBits_take x (Nat.le_refl w)
  rwa [List.take_of_length_le (Nat.le_of_eq (length_bitsOf x)), Nat.sub_self, Nat.pow_zero, Nat.div_one] at h

/-! ### The check (R30) -/

/-- One step of the check undone: the polynomial's lowest bit tells whether it was taken. -/
def checkStepBack (r : Byte) (b : LineBit) : Byte :=
  if r.getLsbD 0 then ((r ^^^ 0x07#8) >>> 1) ||| (if b then 0 else 0x80) else (r >>> 1) ||| (if b then 0x80 else 0)

theorem checkStepBack_checkStep : ∀ (r : Byte) (b : LineBit), checkStepBack (checkStep r b) b = r := by decide +kernel

theorem checkStep_injective (b : LineBit) : Function.Injective fun r => checkStep r b := fun x y h => by
  rw [← checkStepBack_checkStep x b, ← checkStepBack_checkStep y b]
  exact congrArg (checkStepBack · b) h

/-- Two registers that the same bits take to one value were the same. -/
theorem foldl_checkStep_injective (bits : List LineBit) : Function.Injective fun r => bits.foldl checkStep r := by
  induction bits with
  | nil => exact fun x y h => h
  | cons b bits ih => exact fun x y h => checkStep_injective b (ih h)

/-- R30: the register run over its own bits is 0. -/
theorem foldl_checkStep_self : ∀ r : Byte, (bitsOf r).foldl checkStep r = 0 := by decide +kernel

theorem checkOf_append (front back : List LineBit) : checkOf (front ++ back) = back.foldl checkStep (checkOf front) :=
  List.foldl_append

/-- R30: head, body and check leave the register at 0 exactly when the check is the register's value before it. -/
theorem checkOf_eq_zero_iff (bits : List LineBit) (check : Byte) :
    checkOf (bits ++ bitsOf check) = 0 ↔ check = checkOf bits := by
  rw [checkOf_append]
  constructor
  · intro h
    exact (foldl_checkStep_injective (bitsOf check) (h.trans (foldl_checkStep_self check).symm)).symm
  · rintro rfl
    exact foldl_checkStep_self _

/-- Settles O16. -/
theorem checkLeavesZero : Obligations.CheckLeavesZero :=
  ⟨rfl, fun bits b => by rw [checkOf_append]; rfl, checkOf_eq_zero_iff⟩

/-! ### Fill bits (R29) -/

/-- R29: a bit goes on the line, with or without a fill bit behind it. -/
theorem withFill_cons (run : Nat) (b : LineBit) (bits : List LineBit) :
    withFill run (b :: bits) = b :: false :: withFill 0 bits ∨
      withFill run (b :: bits) = b :: withFill (if b then run + 1 else 0) bits := by
  rw [withFill]
  exact (Decidable.em _).imp (fun h => if_pos h) fun h => if_neg h

theorem head?_withFill (run : Nat) (b : LineBit) (bits : List LineBit) : (withFill run (b :: bits)).head? = some b := by
  obtain h | h := withFill_cons run b bits <;> rw [h] <;> rfl

theorem withFill_recessive {run : Nat} {bits : List LineBit} (h : run + 1 < 7) :
    withFill run (true :: bits) = true :: withFill (run + 1) bits := by
  have hrun : ¬ run + 1 = 7 := by omega
  simp [withFill, Config.fillRun, hrun]

theorem withFill_dominant (run : Nat) (bits : List LineBit) :
    withFill run (false :: bits) = false :: withFill 0 bits := by
  simp [withFill, Config.fillRun]

theorem withFill_fills {b : LineBit} {bits : List LineBit} :
    withFill 6 (true :: b :: bits) = true :: false :: withFill 0 (b :: bits) := by
  rw [withFill]
  simp [Config.fillRun]

theorem withFill_last {b : LineBit} {run : Nat} : withFill run [b] = [b] := by simp [withFill]

/-- R29: a run of recessive bits short of the fill run has no fill bit in it. -/
theorem withFill_replicate {run r : Nat} {bits : List LineBit} (h : run + r < 7) :
    withFill run (List.replicate r true ++ bits) = List.replicate r true ++ withFill (run + r) bits := by
  induction r generalizing run with
  | zero => rfl
  | succ r ih =>
    rw [List.replicate_succ, List.cons_append, List.cons_append, withFill_recessive (by omega), ih (by omega),
      Nat.add_assoc, Nat.add_comm 1 r]

theorem replicate_seven_append (bits : List LineBit) :
    List.replicate 7 true ++ bits = List.replicate 6 true ++ true :: bits := rfl

/-! ### The length of a frame (R28) -/

/-- R28: once the bits that decide a frame's length have been taken, later ones do not change it. -/
theorem frameLength_append {taken more : List LineBit} {n : Nat} (h : frameLength taken = some n) :
    frameLength (taken ++ more) = some n := by
  match taken, h with
  | false :: false :: _, h | true :: false :: _, h => exact h
  | false :: true :: rest, h =>
    simp only [frameLength, List.cons_append] at h ⊢
    obtain ⟨b, hb, hn⟩ := Option.map_eq_some_iff.1 h
    rw [List.getElem?_append_left (List.getElem?_eq_some_iff.1 hb).1, hb, Option.map_some, hn]
  | true :: true :: _, h | [], h | [_], h => simp [frameLength] at h

/-- R28: these are the bits of a whole frame: its length, as its own bits decide it, is theirs. -/
def wholeFrame (bits : List LineBit) : Prop := frameLength bits = some bits.length

/-- R28, R38: within a frame the receiver neither finds class 11 nor the end of the frame. -/
theorem wholeFrame.within {bits taken rest : List LineBit} (h : wholeFrame bits) (hbits : bits = taken ++ rest)
    (hrest : rest ≠ []) : taken ≠ [true, true] ∧ frameLength taken ≠ some taken.length := by
  subst hbits
  refine ⟨fun htaken => ?_, fun hlength => ?_⟩
  · subst htaken
    simp [wholeFrame, frameLength] at h
  · have hsame := (frameLength_append (more := rest) hlength).symm.trans h
    rw [List.length_append, Option.some.injEq] at hsame
    exact hrest (List.length_eq_zero_iff.1 (by omega))

theorem wholeFrame.atEnd {bits : List LineBit} (h : wholeFrame bits) : bits ≠ [true, true] := by
  rintro rfl; simp [wholeFrame, frameLength] at h

theorem wholeFrame.ne_nil {bits : List LineBit} (h : wholeFrame bits) : bits ≠ [] := by
  rintro rfl; simp [wholeFrame, frameLength] at h

/-! ### The receiver over the levels of a frame (R28, R29, R38) -/

/-- R29: the recessive run that a bit leaves. -/
def nextRun (run : Nat) (b : LineBit) : Nat := if b then run + 1 else 0

/-- R29: after a run of recessive bits below the fill run the receiver takes the next bit. -/
theorem receiveFrom_takes {taken tail : List LineBit} {run : Nat} {b : LineBit} (hrun : run < 7)
    (hclass : taken ++ [b] ≠ [true, true]) (hlength : frameLength (taken ++ [b]) ≠ some (taken ++ [b]).length) :
    receiveFrom taken run (b :: tail) = receiveFrom (taken ++ [b]) (nextRun run b) tail := by
  have hfill : ¬ run = 7 := by omega
  simp only [nextRun, receiveFrom, Config.fillRun, if_neg hfill, if_neg hclass, if_neg hlength]

/-- R28: with its last bit the frame is judged. -/
theorem receiveFrom_ends {taken tail : List LineBit} {run : Nat} {b : LineBit} (hrun : run < 7)
    (h : wholeFrame (taken ++ [b])) : receiveFrom taken run (b :: tail) = judgeFrame (taken ++ [b]) := by
  have hfill : ¬ run = 7 := by omega
  simp only [receiveFrom, Config.fillRun, if_neg hfill, if_neg h.atEnd, if_pos (show frameLength _ = _ from h)]

theorem receiveFrom_fill (taken tail : List LineBit) :
    receiveFrom taken 7 (false :: tail) = receiveFrom taken 0 tail := by
  simp [receiveFrom, Config.fillRun]

theorem receiveFrom_recessiveFill (taken tail : List LineBit) : receiveFrom taken 7 (true :: tail) = .malformed := by
  simp [receiveFrom, Config.fillRun]

/-- R29: the recessive run after the bits of `bits`, at the end of which no fill bit has been sent. -/
def runAfter (run : Nat) : List LineBit → Nat
  | [] => run
  | b :: bs => if nextRun run b = 7 ∧ bs ≠ [] then runAfter 0 bs else runAfter (nextRun run b) bs

/-- R29: what the next bit makes of a run, with a fill bit between a full run and a bit that follows. -/
theorem withFill_cons_cons (run : Nat) (b c : LineBit) (bits : List LineBit) : withFill run (b :: c :: bits) =
    if nextRun run b = 7 then b :: false :: withFill 0 (c :: bits) else b :: withFill (nextRun run b) (c :: bits) := by
  rw [withFill]
  by_cases h : nextRun run b = 7
  · rw [if_pos h]; exact if_pos ⟨h, List.cons_ne_nil c bits⟩
  · rw [if_neg h]; exact if_neg fun h' => h h'.1

theorem runAfter_cons_cons (run : Nat) (b c : LineBit) (bits : List LineBit) : runAfter run (b :: c :: bits) =
    if nextRun run b = 7 then runAfter 0 (c :: bits) else runAfter (nextRun run b) (c :: bits) := by
  conv => lhs; rw [runAfter]
  simp

theorem runAfter_last (run : Nat) (b : LineBit) : runAfter run [b] = nextRun run b := by simp [runAfter]

theorem nextRun_le {run : Nat} (b : LineBit) (h : run < 7) : nextRun run b ≤ 7 := by
  unfold nextRun; split <;> omega

theorem runAfter_le {run : Nat} (bits : List LineBit) (h : run < 7) : runAfter run bits ≤ 7 := by
  induction bits generalizing run with
  | nil => exact Nat.le_of_lt h
  | cons b bits ih =>
    cases bits with
    | nil => rw [runAfter_last]; exact nextRun_le b h
    | cons c bits =>
      have hnext := nextRun_le b h
      rw [runAfter_cons_cons]
      split
      · exact ih (by omega)
      · exact ih (by omega)

/-- R29: bits sent before others: a fill bit stands between them exactly where the first end with a full run. -/
theorem withFill_append {run : Nat} {front rest : List LineBit} (hrest : rest ≠ []) (h : run < 7) :
    withFill run (front ++ rest) = withFill run front ++
      if runAfter run front = 7 then false :: withFill 0 rest else withFill (runAfter run front) rest := by
  induction front generalizing run with
  | nil => rw [runAfter, if_neg (by omega)]; rfl
  | cons b front ih =>
    have hnext := nextRun_le b h
    cases front with
    | nil =>
      obtain ⟨c, rest, rfl⟩ := List.exists_cons_of_ne_nil hrest
      rw [withFill_last, runAfter_last, List.singleton_append, withFill_cons_cons]
      split <;> rfl
    | cons c front =>
      rw [List.cons_append, List.cons_append, withFill_cons_cons, withFill_cons_cons, runAfter_cons_cons]
      split
      · rw [← List.cons_append, ih (by omega)]; rfl
      · rw [← List.cons_append, ih (by omega)]; rfl

/-- R28, R29: the receiver takes the first bits of a frame, fill bits removed, whatever follows. -/
theorem receiveFrom_withFill {taken front rest tail bits : List LineBit} {run : Nat} (hbits : wholeFrame bits)
    (hsplit : bits = taken ++ (front ++ rest)) (hrest : rest ≠ []) (hrun : run < 7) :
    receiveFrom taken run (withFill run front ++ tail) = receiveFrom (taken ++ front) (runAfter run front) tail := by
  induction front generalizing taken run with
  | nil => rw [List.append_nil]; rfl
  | cons b front ih =>
    have hsplit' : bits = (taken ++ [b]) ++ (front ++ rest) := by rw [hsplit]; simp
    have hnext := nextRun_le b hrun
    obtain ⟨hclass, hlength⟩ := hbits.within hsplit' (by simp [hrest])
    cases front with
    | nil =>
      rw [withFill_last, List.singleton_append, receiveFrom_takes hrun hclass hlength, runAfter_last]
    | cons c front =>
      rw [withFill_cons_cons, runAfter_cons_cons]
      split
      · next hfull =>
        rw [List.cons_append, receiveFrom_takes hrun hclass hlength, hfull, List.cons_append, receiveFrom_fill,
          ih hsplit' (by omega), List.append_assoc, List.singleton_append]
      · rw [List.cons_append, receiveFrom_takes hrun hclass hlength, ih hsplit' (by omega), List.append_assoc,
          List.singleton_append]

/-- R28, R29: the receiver over the levels of a whole frame judges its bits, whatever follows. -/
theorem receive_withFill {bits : List LineBit} (h : wholeFrame bits) (more : List LineBit) :
    receive (withFill 0 bits ++ more) = judgeFrame bits := by
  obtain ⟨front, b, rfl⟩ : ∃ front b, bits = front ++ [b] := ⟨_, _, (List.dropLast_concat_getLast h.ne_nil).symm⟩
  have hrun := runAfter_le front (show 0 < 7 by omega)
  rw [withFill_append (List.cons_ne_nil b []) (by omega), List.append_assoc, receive,
    receiveFrom_withFill (taken := []) h rfl (List.cons_ne_nil b []) (by omega), List.nil_append]
  split
  · next hfull =>
    rw [hfull, List.cons_append, receiveFrom_fill, withFill_last, List.singleton_append,
      receiveFrom_ends (by omega) h]
  · rw [withFill_last, List.singleton_append, receiveFrom_ends (by omega) h]

/-- R39: a recessive bit in the place of a fill bit makes the frame malformed. -/
theorem receive_recessiveFill {bits front rest : List LineBit} (h : wholeFrame bits) (hbits : bits = front ++ rest)
    (hrest : rest ≠ []) (hfull : runAfter 0 front = 7) (more : List LineBit) :
    receive (withFill 0 front ++ true :: more) = .malformed := by
  rw [receive, receiveFrom_withFill (taken := []) h hbits hrest (by omega), hfull, receiveFrom_recessiveFill]

/-- R29: only a full run has a fill bit behind it. -/
theorem runAfter_of_fill {front rest : List LineBit} (hrest : rest ≠ [])
    (h : withFill 0 (front ++ rest) = withFill 0 front ++ false :: withFill 0 rest) : runAfter 0 front = 7 := by
  refine Decidable.byContradiction fun hrun => ?_
  have hle := runAfter_le front (show 0 < 7 by omega)
  rw [withFill_append hrest (by omega), if_neg hrun, List.append_cancel_left_eq] at h
  obtain ⟨b, rest, rfl⟩ := List.exists_cons_of_ne_nil hrest
  have hb : b = false := by
    have hhead := congrArg List.head? h
    rw [head?_withFill, List.head?_cons] at hhead
    exact Option.some.inj hhead
  subst hb
  rw [withFill_dominant, withFill_dominant, List.cons.injEq] at h
  have hlength := congrArg List.length h.2
  rw [List.length_cons] at hlength
  omega

/-- R38: before its last bit the receiver has not come to the frame's end. -/
theorem receiveFrom_unfinished {taken rest bits : List LineBit} {run k : Nat} (hbits : wholeFrame bits)
    (hsplit : bits = taken ++ rest) (hrun : run < 7) (hk : k < (withFill run rest).length) :
    receiveFrom taken run ((withFill run rest).take k) = .unfinished := by
  induction rest generalizing taken run k with
  | nil => exact absurd hk (Nat.not_lt_zero k)
  | cons b rest ih =>
    cases k with
    | zero => rfl
    | succ k =>
      have hnext := nextRun_le b hrun
      cases rest with
      | nil =>
        rw [withFill_last] at hk
        exact absurd hk (by simp)
      | cons c rest =>
        have hsplit' : bits = (taken ++ [b]) ++ c :: rest := by rw [hsplit]; simp
        obtain ⟨hclass, hlength⟩ := hbits.within hsplit' (List.cons_ne_nil c rest)
        rw [withFill_cons_cons] at hk ⊢
        split at hk
        · next hfull =>
          rw [if_pos hfull, List.take_succ_cons, receiveFrom_takes hrun hclass hlength, hfull]
          cases k with
          | zero => rfl
          | succ k =>
            rw [List.take_succ_cons, receiveFrom_fill]
            exact ih hsplit' (by omega) (by simpa using hk)
        · next hfull =>
          rw [if_neg hfull, List.take_succ_cons, receiveFrom_takes hrun hclass hlength]
          exact ih hsplit' (by omega) (by simpa using hk)

theorem receive_unfinished {bits : List LineBit} (h : wholeFrame bits) {k : Nat} (hk : k < (withFill 0 bits).length) :
    receive ((withFill 0 bits).take k) = .unfinished :=
  receiveFrom_unfinished h rfl (by omega) hk

/-! ### The bits of the three classes (R27, R28) -/

/-- R28: the bits of a frame with any check have the length that they decide. -/
theorem wholeFrame_content (f : Frame) (check : Byte) : wholeFrame (contentBits f ++ bitsOf check) := by
  unfold wholeFrame contentBits
  cases f with
  | mk origin body =>
    cases body with
    | mark m => simp [frameLength, classBits, bodyBits]
    | roll r => simp [frameLength, classBits, bodyBits]
    | event e =>
      cases hvalue : e.value <;> simp [frameLength, classBits, bodyBits, hvalue]

/-- R27: the fields of a frame's bits are the frame's, class by class. -/
theorem frameOfBits_content (f : Frame) (check : Byte) : frameOfBits (contentBits f ++ bitsOf check) = f := by
  cases f with
  | mk origin body =>
    cases body with
    | mark m =>
      simp [frameOfBits, contentBits, classBits, bodyBits, bitAt, fieldAt, List.drop_append,
        natOfBits_bitsOf, drop_bitsOf]
    | roll r =>
      simp [frameOfBits, contentBits, classBits, bodyBits, bitAt, fieldAt, List.drop_append,
        natOfBits_bitsOf, drop_bitsOf]
    | event e =>
      cases e with
      | mk timed restart repeatIndex sequence tag occurrence value =>
        cases value <;>
          simp [frameOfBits, contentBits, classBits, bodyBits, bitAt, fieldAt, List.drop_append, natOfBits_bitsOf,
            drop_bitsOf]

/-- R30, R39, R40: how the bits of a frame with any check are judged. -/
theorem judgeFrame_content (f : Frame) (check : Byte) : judgeFrame (contentBits f ++ bitsOf check) =
    if check = checkOf (contentBits f) then if frameWellFormed f then .good f else .malformed else .checkError := by
  simp only [judgeFrame, checkOf_eq_zero_iff, frameOfBits_content]

theorem judgeFrame_frameBits (f : Frame) : judgeFrame (frameBits f) = if frameWellFormed f then .good f else .malformed :=
  (judgeFrame_content f _).trans (if_pos rfl)

theorem wholeFrame_frameBits (f : Frame) : wholeFrame (frameBits f) := wholeFrame_content f _

/-- R28 to R30, R40: a receiver takes exactly the well-formed frame that was sent. -/
theorem receive_wellFormed {f : Frame} (h : frameWellFormed f = true) (more : List LineBit) :
    receive (withFill 0 (frameBits f) ++ more) = .good f := by
  rw [receive_withFill (wholeFrame_frameBits f), judgeFrame_frameBits, if_pos h]

/-- Settles O15: the layout by definition, the fill rule by its run, and the receiver's part. -/
theorem frameRoundTrip : Obligations.FrameRoundTrip := by
  refine ⟨fun w x => ⟨length_bitsOf x, fun i hi => getElem?_bitsOf x hi⟩, fun o m => ?_, fun o e hvalue => ?_,
    fun o e v hvalue => ?_, fun o r => ?_, fun f => ⟨rfl, rfl⟩, fun r bits hr => ?_, fun b bits => ?_, fun r hr => ?_,
    fun f after hf => receive_wellFormed hf after⟩
  · simp [contentBits, classBits, bodyBits]
  · simp [contentBits, classBits, bodyBits, hvalue]
  · simp [contentBits, classBits, bodyBits, hvalue]
  · simp [contentBits, classBits, bodyBits]
  · rw [withFill_replicate (by omega), withFill_dominant]
  · rw [replicate_seven_append, withFill_replicate (by omega), withFill_fills]
    rfl
  · obtain hlow | rfl := Nat.lt_or_eq_of_le hr
    · have h := withFill_replicate (run := 0) (r := r) (bits := []) (by omega)
      simpa [withFill] using h
    · decide

/-! ### Frames that are discarded (R39, R40) -/

theorem exec_frameDiscarded (bits : List LineBit) (s : State) :
    exec (.frameDiscarded bits) s = execFrameDiscarded bits s := rfl

/-- R39, R40: a frame that breaks R40 is malformed, whatever its class would deliver. -/
theorem deliver_malformed {f : Frame} {s : State} (own peer : State → State) (hs : receiving s = true)
    (hf : frameWellFormed f = false) : deliver f own peer s = discardMalformed s := by
  rw [deliver, if_pos hs, if_neg (by rw [hf]; exact Bool.false_ne_true)]

theorem deliver_of_notReceiving {f : Frame} {s : State} (own peer : State → State) (hs : receiving s = false) :
    deliver f own peer s = s := if_neg (by rw [hs]; exact Bool.false_ne_true)

theorem receiving_eq_false {s : State} (h : joined s = false ∨ s.liu.rx ≠ .taking ∨ s.liu.tx ≠ .ready) :
    receiving s = false := by
  refine Bool.eq_false_iff.2 fun hs => ?_
  obtain ⟨hjoined, hrx, htx⟩ := (receiving_iff s).1 hs
  exact h.elim (fun h => by simp [hjoined] at h) fun h => h.elim (fun h => h hrx) fun h => h htx

/-- Settles O50: what the receiver makes of the levels, and then what each discard counts. -/
theorem discardsAreCounted : Obligations.DiscardsAreCounted := by
  refine ⟨fun more => rfl, fun f check more hcheck => ?_, fun f more hf => ?_,
    fun f check front rest more hsplit hrest hfill => ?_, fun f check k hk => receive_unfinished (wholeFrame_content f check) hk,
    fun bits s hjoined hrx htx => ?_, ?_,
    fun bits origin m order e r s hno => ?_⟩
  · rw [receive_withFill (wholeFrame_content f check), judgeFrame_content, if_neg hcheck]
  · rw [receive_withFill (wholeFrame_frameBits f), judgeFrame_frameBits, if_neg (by rw [hf]; exact Bool.false_ne_true)]
  · exact receive_recessiveFill (wholeFrame_content f check) hsplit hrest (runAfter_of_fill hrest hfill) more
  · have hs : receiving s = true := (receiving_iff s).2 ⟨hjoined, hrx, htx⟩
    simp only [exec_frameDiscarded, execFrameDiscarded, if_pos hs]
    refine ⟨fun h => ?_, fun h => ?_, fun f h => ?_, fun h => ?_⟩ <;> simp only [h] <;> rfl
  · intro origin m order e r s hjoined hrx htx u
    have hs : receiving s = true := (receiving_iff s).2 ⟨hjoined, hrx, htx⟩
    have hdiscard (f : Frame) (own peer : State → State) (hf : ¬ frameWellFormed f = true) :
        deliver f own peer s = u := deliver_malformed own peer hs (Bool.eq_false_iff.2 hf)
    refine ⟨fun h => ?_, fun h => ?_, fun h => ?_⟩
    · rw [exec_markArrival, execMarkArrival, hdiscard _ _ _ (by rw [frameWellFormed_mark_iff, h]; exact Bool.false_ne_true)]
    · rw [exec_eventArrival, execEventArrival, hdiscard _ _ _ ?_]
      rw [frameWellFormed_event_iff]
      rintro ⟨hvalid, hrepeat⟩
      exact h.elim (fun h => by simp [hvalid] at h) fun h => by omega
    · rw [exec_rollArrival, execRollArrival, hdiscard _ _ _ ?_]
      rw [frameWellFormed_roll_iff]
      rintro ⟨hvalid, hlow, hhigh, hsize, hoccupancy⟩
      obtain h | h | h | h | h := h
      · simp [hvalid] at h
      · simp [h] at hlow
      all_goals omega
  · have hs : receiving s = false := receiving_eq_false hno
    refine ⟨congrArg Host.Outcome.next (if_neg (by rw [hs]; exact Bool.false_ne_true)),
      congrArg Host.Outcome.next (deliver_of_notReceiving _ _ hs), congrArg Host.Outcome.next (deliver_of_notReceiving _ _ hs),
      congrArg Host.Outcome.next (deliver_of_notReceiving _ _ hs)⟩

end Sys2Proof.Machine
end

section
/-! The line: how an attempt begins and ends (R24, R31 to R36, R42), the idle line and the start bit (R38), and the same bit
time by bit time (R26, R31 to R33, R38). -/

namespace Sys2Proof.Machine

-- Proofs elaborated side by side need more threads than the memory limit of the check holds.
set_option Elab.async false

/-! ### Completion (R25, R34, R155, R156) -/

theorem exec_completed {a : Attempt} {s : State} (hattempt : s.liu.attempt = some a) (htx : s.liu.tx = .body) :
    exec .completed s = .next (completeAttempt a { s with
      liu := { s.liu with tx := .ready, rx := .seeking, recessive := 0, attempt := none } }) := by
  show execCompleted s = _
  simp only [execCompleted, hattempt, if_pos htx]
  rfl

theorem ownMarkCompleted_mark {a : Attempt} {m : MarkFields} {s : State} (hbody : a.frame.body = .mark m)
    (hjoined : joined s = true) : ownMarkCompleted a s = { s with ftu := { s.ftu with marker := some m.boundary } } := by
  simp only [ownMarkCompleted, hbody, if_pos hjoined]
  rfl

theorem completeAttempt_mark {a : Attempt} {m : MarkFields} {s : State} (hitem : a.item = .mark)
    (hbody : a.frame.body = .mark m) (hjoined : joined s = true) : completeAttempt a s = { s with
      ftu := { s.ftu with marker := some m.boundary }
      pub := { s.pub with markSlot := if a.pending then none else s.pub.markSlot } } := by
  simp only [completeAttempt, hitem]
  cases a.pending with
  | true => exact ownMarkCompleted_mark hbody hjoined
  | false => exact ownMarkCompleted_mark hbody hjoined

theorem completeAttempt_event {a : Attempt} {s : State} (hitem : a.item = .event) (hpending : a.pending = true) :
    completeAttempt a s = { s with
      pub := { s.pub with queue := copyCompleted s.params.copies.toNat s.pub.queue } } := by
  simp only [completeAttempt, hitem, if_pos hpending]

theorem completeAttempt_event_orphan {a : Attempt} {s : State} (hitem : a.item = .event) (hpending : a.pending = false) :
    completeAttempt a s = s := by
  simp only [completeAttempt, hitem, hpending, Bool.false_eq_true, if_false]

theorem completeAttempt_roll {a : Attempt} {s : State} (hitem : a.item = .roll) : completeAttempt a s =
    { s with pub := { s.pub with rollSlot := if a.pending then none else s.pub.rollSlot } } := by
  simp only [completeAttempt, hitem]
  cases a.pending <;> rfl

/-- Settles O55: by the item. -/
theorem completionSettlesItem : Obligations.CompletionSettlesItem := by
  intro a s hattempt htx u
  rw [exec_completed hattempt htx]
  refine ⟨fun m hitem hbody hjoined => ?_, fun e es hitem hpending hqueue => ?_, fun hitem hpending => ?_, fun hitem => ?_⟩
  · exact congrArg Host.Outcome.next (completeAttempt_mark hitem hbody hjoined)
  · rw [completeAttempt_event hitem hpending]
    simp only [hqueue, copyCompleted]
    rfl
  · exact congrArg Host.Outcome.next (completeAttempt_event_orphan hitem hpending)
  · exact congrArg Host.Outcome.next (completeAttempt_roll hitem)

/-! ### Bit faults (R33, R36, R42) -/

theorem canFaultAt_iff (f : Frame) (won : Bool) (bit : Nat) : canFaultAt f won bit = true ↔
    (won = false ∧ bit ≤ 8 ∧ (lineBits f)[bit]? = some false) ∨ (won = true ∧ 9 ≤ bit ∧ bit < (lineBits f).length) := by
  cases won with
  | false => simp [canFaultAt]; exact fun _ => Iff.rfl
  | true => simp [canFaultAt]; exact fun _ => Iff.rfl

theorem exec_bitFault_idle {bit : Nat} {s : State} (h : s.liu.attempt = none ∨ s.liu.tx = .ready ∨ s.liu.tx = .off) :
    exec (.bitFault bit) s = .next s := by
  show execBitFault bit s = _
  unfold execBitFault
  split
  · rfl
  · next a hattempt =>
    split
    · obtain h | h | h := h
      · simp [hattempt] at h
      · rw [h]
      · rw [h]
    · rfl

section Faults
variable {a : Attempt} {bit : Nat} {s : State} (hattempt : s.liu.attempt = some a)
include hattempt

theorem exec_bitFault_elsewhere (h : ¬ canFaultAt a.frame a.won bit = true) : exec (.bitFault bit) s = .next s := by
  show execBitFault bit s = _
  simp only [execBitFault, hattempt, if_neg h]

theorem exec_bitFault (h : canFaultAt a.frame a.won bit = true) (htx : s.liu.tx = .head ∨ s.liu.tx = .body) :
    exec (.bitFault bit) s = .next (faultAttempt a s) := by
  show execBitFault bit s = _
  rcases htx with htx | htx <;> simp only [execBitFault, hattempt, if_pos h, htx]

theorem exec_bitFault_draining (h : canFaultAt a.frame a.won bit = true) (htx : s.liu.tx = .draining) :
    exec (.bitFault bit) s =
      .next (count (fun c => { c with bitFaults := satInc c.bitFaults }) (drainingOver s)) := by
  show execBitFault bit s = _
  simp only [execBitFault, hattempt, if_pos h, htx]

end Faults

/-- R33: the state after the fault of an attempt, before its item's fault attempts. -/
def faultCounted (s : State) : State := count (fun c => { c with bitFaults := satInc c.bitFaults }) (attemptOver s)

theorem faultAttempt_orphan {a : Attempt} {s : State} (h : a.pending = false) : faultAttempt a s = faultCounted s := by
  simp only [faultAttempt, h, Bool.false_eq_true, if_false]
  rfl

/-- R33, R36: the fault attempts of a pending item rise, and at 8 the station enters mute. -/
theorem faultAttempt_pending {a : Attempt} {s : State} {p : Pub} (h : a.pending = true) (hp : addFault a.item s.pub = p) :
    faultAttempt a s = if 8 ≤ faultsOf a.item p then enterMute { faultCounted s with pub := p }
      else { faultCounted s with pub := p } := by
  subst hp
  simp only [faultAttempt, if_pos h]
  rfl

/-- Settles O54: where a fault can be, and then by the attempt's phase and item. -/
theorem bitFaultCountsAndMutes : Obligations.BitFaultCountsAndMutes := by
  refine ⟨fun bit s => exec_bitFault_idle, ?_⟩
  intro a bit s hattempt canFault
  have hcan : canFaultAt a.frame a.won bit = true ↔ canFault := canFaultAt_iff ..
  refine ⟨fun h => exec_bitFault_elsewhere hattempt (mt hcan.1 h), ?_⟩
  intro hfault u mute
  have h := hcan.2 hfault
  refine ⟨fun htx hpending => ?_, fun e es htx hpending hitem hqueue => ?_, fun r htx hpending hitem hslot => ?_,
    fun r htx hpending hitem hslot => ?_, fun htx => exec_bitFault_draining hattempt h htx⟩
  · rw [exec_bitFault hattempt h htx, faultAttempt_orphan hpending]; rfl
  · rw [exec_bitFault hattempt h htx, faultAttempt_pending (p := { s.pub with queue := { e with faults := e.faults + 1 } :: es })
      hpending (by simp only [addFault, hitem, hqueue]), hitem]
    rfl
  · rw [exec_bitFault hattempt h htx, faultAttempt_pending (p := { s.pub with markSlot := some { r with faults := r.faults + 1 } })
      hpending (by simp only [addFault, hitem, hslot, Option.map_some]), hitem]
    rfl
  · rw [exec_bitFault hattempt h htx, faultAttempt_pending (p := { s.pub with rollSlot := some { faults := r.faults + 1 } })
      hpending (by simp only [addFault, hitem, hslot, Option.map_some]), hitem]
    rfl

/-! ### Attempts (R24, R31, R51, R153, R154, R157) -/

theorem canAttempt_iff (s : State) : canAttempt s = true ↔
    joined s = true ∧ s.liu.tx = .ready ∧ s.liu.rx = .waiting ∧ s.liu.muted = false := by
  simp [canAttempt, and_assoc]

theorem exec_transmissionAttempt {s : State} (h : canAttempt s = true) :
    exec .transmissionAttempt s = .next (attemptOffer s) := congrArg Host.Outcome.next (if_pos h)

theorem exec_transmissionAttempt_idle {s : State} (h : ¬ canAttempt s = true) : exec .transmissionAttempt s = .next s :=
  congrArg Host.Outcome.next (if_neg h)

theorem attemptOffer_none {s : State} (h : s.liu.offer = none) : attemptOffer s = s := by
  simp only [attemptOffer, h]

theorem attemptOffer_event {s : State} (h : s.liu.offer = some .event) : attemptOffer s = beginAttempt .event s := by
  simp only [attemptOffer, h]

theorem attemptOffer_roll {s : State} (h : s.liu.offer = some .roll) : attemptOffer s = beginAttempt .roll s := by
  simp only [attemptOffer, h]

theorem attemptOffer_mark {b : Time} {s : State} (h : s.liu.offer = some (.mark b))
    (hage : (s.ftu.time - b).toNat ≤ s.params.window.toNat) : attemptOffer s = beginAttempt (.mark b) s := by
  have hok : ageOk b s = true := decide_eq_true hage
  simp only [attemptOffer, h, if_pos hok]

/-- R24, R157: what becomes of an offered MARK that is older than W. -/
theorem attemptOffer_aged {b : Time} {s u : State} (h : s.liu.offer = some (.mark b))
    (hage : s.params.window.toNat < (s.ftu.time - b).toNat)
    (hu : setLiu (fun l => { l with offer := none }) (withdrawSame b s) = u) : attemptOffer s =
      match arbiterRest u with
      | some o => beginAttempt o u
      | none => u := by
  subst hu
  have hold : ¬ ageOk b s = true := by
    rw [ageOk, decide_eq_true_eq]; exact Nat.not_le.2 hage
  simp only [attemptOffer, h, if_neg hold] <;> rfl

/-- R157: the arbiter's answer below the MARK request. -/
theorem arbiterRest_event {s : State} (hqueue : s.pub.queue ≠ []) : arbiterRest s = some .event := by
  simp [arbiterRest, hqueue]

theorem arbiterRest_roll {s : State} (hqueue : s.pub.queue = []) (hroll : s.pub.rollSlot ≠ none) :
    arbiterRest s = some .roll := by
  simp [arbiterRest, hqueue, Option.isSome_iff_ne_none, hroll]

theorem arbiterRest_none {s : State} (hqueue : s.pub.queue = []) (hroll : s.pub.rollSlot = none) :
    arbiterRest s = none := by
  simp [arbiterRest, hqueue, hroll]

/-- R153, R154: an attempt of the head entry, with the sequence and the flags it has from now on. -/
theorem beginAttempt_event {e : QueueEntry} {es : List QueueEntry} {s : State} (hqueue : s.pub.queue = e :: es) :
    let e' := if e.sequence = none then
      { e with sequence := some (s.pub.ownSequence + 1), restart := s.pub.restartPending } else e
    beginAttempt .event s = startFrame .event (.event
      { timed := e.timed, restart := e'.restart, repeatIndex := BitVec.ofNat 2 e.copiesSent,
        sequence := e'.sequence.getD 0, tag := e.tag, occurrence := e.occurrence, value := e.value }) true
      { s with pub := { s.pub with
        queue := e' :: es
        ownSequence := if e.sequence = none then s.pub.ownSequence + 1 else s.pub.ownSequence
        restartPending := if e.sequence = none then false else s.pub.restartPending } } := by
  intro e'
  cases hsequence : e.sequence with
  | none => simp only [e', beginAttempt, assignSequence, hqueue, hsequence, if_pos]; rfl
  | some n =>
    simp only [e', beginAttempt, assignSequence, hqueue, hsequence, reduceCtorEq, if_false]
    rw [← hqueue]
    simp only [eventOfEntry, hsequence]

theorem exec_eventAttempt {s : State} (hjoined : joined s = true) (htx : s.liu.tx = .ready) (hrx : s.liu.rx = .waiting)
    (hmuted : s.liu.muted = false) (hoffer : s.liu.offer = some .event) :
    exec .transmissionAttempt s = .next (beginAttempt .event s) := by
  rw [exec_transmissionAttempt ((canAttempt_iff s).2 ⟨hjoined, htx, hrx, hmuted⟩), attemptOffer_event hoffer]

/-- Settles O52: by the offer, and an aged MARK by what the arbiter answers next. -/
theorem attemptTakesContents : Obligations.AttemptTakesContents := by
  refine ⟨fun s hno => exec_transmissionAttempt_idle fun hcan => ?_, ?_⟩
  · obtain ⟨hjoined, htx, hrx, hmuted⟩ := (canAttempt_iff s).1 hcan
    simp [hjoined, htx, hrx, hmuted] at hno
  · intro s hjoined htx hrx hmuted sending roll
    have hcan : canAttempt s = true := (canAttempt_iff s).2 ⟨hjoined, htx, hrx, hmuted⟩
    have hexec {t : State} (h : attemptOffer s = t) : exec .transmissionAttempt s = .next t :=
      (exec_transmissionAttempt hcan).trans (congrArg Host.Outcome.next h)
    refine ⟨fun hoffer => hexec (attemptOffer_none hoffer), fun b hoffer hage => hexec (attemptOffer_mark hoffer hage),
      fun e es hoffer hqueue => hexec ((attemptOffer_event hoffer).trans (beginAttempt_event hqueue)),
      fun hoffer => hexec (attemptOffer_roll hoffer), ?_⟩
    intro b hoffer hage slot u hattempt
    have hu : setLiu (fun l => { l with offer := none }) (withdrawSame b s) = u := by
      simp only [withdrawSame_eq, u, slot, setLiu, hattempt, Option.map_none, ite_self]
    have hoffered := attemptOffer_aged hoffer hage hu
    refine ⟨fun hqueue hroll => hexec ?_, fun hqueue hroll => hexec ?_, fun hqueue => ?_⟩
    · rw [hoffered, arbiterRest_none (s := u) hqueue hroll]
    · rw [hoffered, arbiterRest_roll (s := u) hqueue hroll]
      have hpending : s.pub.rollSlot.isSome = true := Option.isSome_iff_ne_none.2 hroll
      show startFrame .roll roll s.pub.rollSlot.isSome u = _
      rw [hpending]; rfl
    · obtain ⟨e, es, hes⟩ := List.exists_cons_of_ne_nil hqueue
      have haged : attemptOffer s = beginAttempt .event u := by rw [hoffered, arbiterRest_event (s := u) hqueue]
      have hnext : exec .transmissionAttempt { u with liu := { u.liu with offer := some .event } } =
          .next (beginAttempt .event { u with liu := { u.liu with offer := some .event } }) :=
        exec_eventAttempt (s := { u with liu := { u.liu with offer := some .event } }) hjoined htx hrx hmuted rfl
      rw [hexec haged, hnext, beginAttempt_event (s := u) hes]
      exact congrArg Host.Outcome.next
        (beginAttempt_event (s := { u with liu := { u.liu with offer := some .event } }) hes).symm

end Sys2Proof.Machine
end

section
/-! The line bit time by bit time (R26, R31 to R33, R38): the count, the bits of another station's frame, and a frame of the
station's own read back. -/

namespace Sys2Proof.Machine

-- Proofs elaborated side by side need more threads than the memory limit of the check holds.
set_option Elab.async false

/-! ### The count (R38) -/

theorem countBit_dominant (l : Liu) : countBit false l = { l with recessive := 0 } := rfl

theorem countBit_taking {l : Liu} (h : l.rx = .taking) : countBit true l = l := by
  simp only [countBit, h, if_true]

theorem countBit_recessive {l : Liu} (h : l.rx ≠ .taking) :
    countBit true l = { l with recessive := min (l.recessive + 1) 10 } := by
  cases hrx : l.rx with
  | taking => exact absurd hrx h
  | seeking | waiting => simp only [countBit, hrx, if_true] <;> rfl

/-! ### A bit time in which the station drives nothing -/

theorem runCommand_of_exec {c : Instr} {s t : State} (h : exec c s = .next t) : runCommand s c = t := by
  simp only [runCommand, h]

theorem commandsOfSending_silent {n : Nat} {b : LineBit} {s : State} (h : s.liu.attempt = none) :
    commandsOfSending n b s = [] := by
  simp only [commandsOfSending, h]

theorem attemptBegins_early {i : BitTime} {s : State} (hearly : i.early = true) (hlevel : i.level = false) :
    attemptBegins i s = false := by
  simp [attemptBegins, hearly, hlevel]

/-- R38: a bit time of a station that sends nothing is the count and what its receiver makes of the level. -/
theorem bitTime_silent {i : BitTime} {f : FrameBits} {s : State} {taken : List LineBit} {commands : List Instr}
    (hattempt : s.liu.attempt = none) (hbegins : attemptBegins i (setLiu (countBit i.level) s) = false)
    (htaken : (if s.liu.rx = .taking then f.taken ++ [i.level] else []) = taken)
    (hcommands : commandsOfReceiving i taken s (setLiu (countBit i.level) s) = commands) :
    bitTime i (s, f) = (commands, commands.foldl runCommand (setLiu (countBit i.level) s),
      { taken := taken, sent := f.sent + 1 }) := by
  subst htaken hcommands
  have hsilent : commandsOfSending f.sent i.level (setLiu (countBit i.level) s) = [] :=
    commandsOfSending_silent (by rw [setLiu_liu, countBit_attempt, hattempt])
  simp [bitTime, hbegins, hsilent]

section Silent
variable {i : BitTime} {f : FrameBits} {s : State} (hattempt : s.liu.attempt = none)
include hattempt

theorem bitTime_seeking (hrx : s.liu.rx = .seeking)
    (hno : joined s = false ∨ i.level = false ∨ s.liu.recessive + 1 ≠ 10) :
    bitTime i (s, f) = ([], setLiu (countBit i.level) s, { taken := [], sent := f.sent + 1 }) := by
  refine bitTime_silent hattempt (attemptBegins_false i (.inl (by simp [hrx]))) (if_neg (by simp [hrx])) ?_
  simp only [commandsOfReceiving, hrx]
  refine if_neg fun ⟨hjoined, hlevel, hcount⟩ => ?_
  have hjoined' : joined s = true := hjoined
  exact hno.elim (fun h => by simp [hjoined'] at h) fun h => h.elim (fun h => by simp [hlevel] at h) fun h => h hcount

theorem bitTime_idle {t : State} (hrx : s.liu.rx = .seeking) (hjoined : joined s = true) (hlevel : i.level = true)
    (hcount : s.liu.recessive + 1 = 10) (ht : exec .lineIdle (setLiu (countBit i.level) s) = .next t) :
    bitTime i (s, f) = ([.lineIdle], t, { taken := [], sent := f.sent + 1 }) := by
  rw [bitTime_silent (commands := [.lineIdle]) hattempt (attemptBegins_false i (.inl (by simp [hrx])))
    (if_neg (by simp [hrx])) ?_]
  · rw [List.foldl_cons, List.foldl_nil, runCommand_of_exec ht]
  · simp only [commandsOfReceiving, hrx]
    exact if_pos ⟨hjoined, hlevel, hcount⟩

theorem bitTime_waiting (hrx : s.liu.rx = .waiting) (hoffer : s.liu.offer = none) (hlevel : i.level = true) :
    bitTime i (s, f) = ([], setLiu (countBit i.level) s, { taken := [], sent := f.sent + 1 }) := by
  refine bitTime_silent hattempt (attemptBegins_false i (.inr (by simp [hoffer]))) (if_neg (by simp [hrx])) ?_
  simp [commandsOfReceiving, hrx, hlevel]

theorem bitTime_startBit {t : State} (hrx : s.liu.rx = .waiting) (hoffer : s.liu.offer = none ∨ i.early = true)
    (hlevel : i.level = false) (ht : exec .startBit (setLiu (countBit i.level) s) = .next t) :
    bitTime i (s, f) = ([.startBit], t, { taken := [], sent := f.sent + 1 }) := by
  have hbegins : attemptBegins i (setLiu (countBit i.level) s) = false :=
    hoffer.elim (fun h => attemptBegins_false i (.inr (by simp [h]))) fun h => attemptBegins_early h hlevel
  rw [bitTime_silent (commands := [.startBit]) hattempt hbegins (if_neg (by simp [hrx])) ?_]
  · rw [List.foldl_cons, List.foldl_nil, runCommand_of_exec ht]
  · simp [commandsOfReceiving, hrx, hlevel]

theorem bitTime_taking (hrx : s.liu.rx = .taking) (hjoined : joined s = true) (htx : s.liu.tx = .ready) :
    bitTime i (s, f) = (commandsOfTaken i.order (f.taken ++ [i.level]),
      (commandsOfTaken i.order (f.taken ++ [i.level])).foldl runCommand (setLiu (countBit i.level) s),
      { taken := f.taken ++ [i.level], sent := f.sent + 1 }) := by
  refine bitTime_silent hattempt (attemptBegins_false i (.inl (by simp [hrx]))) (if_pos hrx) ?_
  have hreceiving : receiving (setLiu (countBit i.level) s) = true :=
    (receiving_iff _).2 ⟨hjoined, by simp [hrx], by simp [htx]⟩
  simp only [commandsOfReceiving, hrx]
  exact if_pos hreceiving

end Silent

/-- R39, R41: what the receiver's judgement asks for. -/
theorem commandsOfTaken_unfinished {order : MarkOrder} {taken : List LineBit} (h : receive taken = .unfinished) :
    commandsOfTaken order taken = [] := by
  simp only [commandsOfTaken, h]

theorem commandsOfTaken_good {order : MarkOrder} {taken : List LineBit} {g : Frame} (h : receive taken = .good g) :
    commandsOfTaken order taken = [match g.body with
      | .mark m => .markArrival g.origin m order
      | .event e => .eventArrival g.origin e
      | .roll r => .rollArrival g.origin r] := by
  cases g with
  | mk origin body => cases body <;> simp only [commandsOfTaken, h]

theorem commandsOfTaken_discarded {order : MarkOrder} {taken : List LineBit}
    (h : receive taken = .malformed ∨ receive taken = .checkError) :
    commandsOfTaken order taken = [.frameDiscarded taken] := by
  rcases h with h | h <;> simp only [commandsOfTaken, h]

/-! ### Runs of bit times -/

/-- R38: recessive bit times short of the tenth. -/
theorem bitTimes_recessive {n : Nat} {order : MarkOrder} {f : FrameBits} {s : State} (hattempt : s.liu.attempt = none)
    (hrx : s.liu.rx = .seeking) (hfew : s.liu.recessive + n < 10) :
    let x := bitTimes (List.replicate n { level := true, early := false, order := order }) (s, f)
    x.1 = [] ∧ x.2.1 = { s with liu := { s.liu with recessive := s.liu.recessive + n } } := by
  induction n generalizing s f with
  | zero => exact ⟨rfl, rfl⟩
  | succ n ih =>
    have hcount : setLiu (countBit true) s = { s with liu := { s.liu with recessive := s.liu.recessive + 1 } } := by
      rw [setLiu, countBit_recessive (by simp [hrx]), Nat.min_eq_left (by omega)]
    have hfirst := bitTime_seeking (i := { level := true, early := false, order := order }) (f := f) hattempt hrx
      (.inr (.inr (by omega)))
    obtain ⟨hnone, hstate⟩ := ih (s := setLiu (countBit true) s) (f := { taken := [], sent := f.sent + 1 })
      (by simp [hattempt]) (by simp [hrx]) (by rw [hcount]; show s.liu.recessive + 1 + n < 10; omega)
    intro x
    have hx : x = bitTimes (List.replicate n { level := true, early := false, order := order })
        (setLiu (countBit true) s, { taken := [], sent := f.sent + 1 }) := by
      simp only [x, List.replicate_succ, bitTimes, hfirst, List.nil_append]
    rw [hx]
    refine ⟨hnone, hstate.trans ?_⟩
    rw [hcount]
    show { s with liu := { s.liu with recessive := s.liu.recessive + 1 + n } } = _
    rw [Nat.add_assoc, Nat.add_comm 1 n]

/-- R38: the tenth recessive bit time makes the line idle. -/
theorem bitTimes_idle {n : Nat} {order : MarkOrder} {f : FrameBits} {s : State} (hjoined : joined s = true)
    (hattempt : s.liu.attempt = none) (hrx : s.liu.rx = .seeking) (hzero : s.liu.recessive = 0) (hn : n ≤ 10) :
    (bitTimes (List.replicate n { level := true, early := false, order := order }) (s, f)).1 =
      if n = 10 then [.lineIdle] else [] := by
  by_cases hten : n = 10
  · subst hten
    rw [if_pos rfl, List.replicate_succ', bitTimes_append]
    obtain ⟨hnone, hstate⟩ := bitTimes_recessive (n := 9) (order := order) (f := f) hattempt hrx (by omega)
    generalize bitTimes (List.replicate 9 _) (s, f) = x at hnone hstate
    obtain ⟨commands, t, g⟩ := x
    obtain rfl : commands = [] := hnone
    obtain rfl : t = _ := hstate
    have hlast := bitTime_idle (i := { level := true, early := false, order := order }) (f := g)
      (s := { s with liu := { s.liu with recessive := s.liu.recessive + 9 } }) hattempt hrx hjoined rfl
      (by rw [hzero]) (exec_eq_next _ _)
    simp only [bitTimes, hlast]
    rfl
  · rw [if_neg hten]
    exact (bitTimes_recessive hattempt hrx (by omega)).1

/-- R38, R41: the receiver takes the levels of a well-formed frame one by one, and delivers it with the last. -/
theorem bitTimes_arrival {g : Frame} {order : MarkOrder} {front rest : List LineBit} {n : Nat} {s : State}
    (hg : frameWellFormed g = true) (hsplit : withFill 0 (frameBits g) = front ++ rest) (hrest : rest ≠ [])
    (hjoined : joined s = true) (hattempt : s.liu.attempt = none) (hrx : s.liu.rx = .taking) (htx : s.liu.tx = .ready) :
    (bitTimes (rest.map fun b => { level := b, early := false, order := order }) (s, { taken := front, sent := n })).1 =
      [match g.body with
        | .mark m => .markArrival g.origin m order
        | .event e => .eventArrival g.origin e
        | .roll r => .rollArrival g.origin r] := by
  induction rest generalizing front n s with
  | nil => exact absurd rfl hrest
  | cons b rest ih =>
    have hfirst := bitTime_taking (i := { level := b, early := false, order := order })
      (f := { taken := front, sent := n }) hattempt hrx hjoined htx
    have hsplit' : withFill 0 (frameBits g) = (front ++ [b]) ++ rest := by rw [hsplit]; simp
    rw [List.map_cons, bitTimes, hfirst]
    cases rest with
    | nil =>
      have hgood : receive (front ++ [b]) = .good g := by
        have h := receive_wellFormed hg []
        rwa [List.append_nil, hsplit', List.append_nil] at h
      rw [commandsOfTaken_good hgood]
      rfl
    | cons c rest =>
      have hunfinished : receive (front ++ [b]) = .unfinished := by
        have h := receive_unfinished (wholeFrame_frameBits g) (k := (front ++ [b]).length) (by rw [hsplit']; simp)
        rwa [hsplit', List.take_left] at h
      rw [commandsOfTaken_unfinished hunfinished]
      exact ih hsplit' (List.cons_ne_nil c rest) hjoined (by simp [hattempt]) (by simp [hrx]) (by simp [htx])

theorem withFill_ne_nil {bits : List LineBit} (h : bits ≠ []) : withFill 0 bits ≠ [] := by
  obtain ⟨b, bits, rfl⟩ := List.exists_cons_of_ne_nil h
  intro hnil
  have hhead := head?_withFill 0 b bits
  rw [hnil] at hhead
  exact absurd hhead (by simp)

theorem exec_startBit {s : State} (hjoined : joined s = true) (hrx : s.liu.rx = .waiting) : exec .startBit s =
    .next { s with liu := { s.liu with rx := .taking, recessive := 0, offer := none } } :=
  congrArg Host.Outcome.next (if_pos ⟨hjoined, hrx⟩)

/-- R38: the line is idle, and the arbiter has not yet been asked. -/
def lineIdle (s : State) : State := { s with liu := { s.liu with rx := .waiting, recessive := 10, offer := none } }

theorem arbiterOffer_by_mute (s : State) : arbiterOffer s = if s.liu.muted then none else
    match s.pub.markSlot, s.pub.queue, s.pub.rollSlot with
      | some r, _, _ => some (.mark r.boundary)
      | none, _ :: _, _ => some .event
      | none, [], some _ => some .roll
      | none, [], none => none := by
  cases hmuted : s.liu.muted with
  | true => exact arbiterOffer_of_muted hmuted
  | false => exact arbiterOffer_eq hmuted

theorem exec_lineIdle {s : State} (hjoined : joined s = true) (hrx : s.liu.rx = .seeking) (htx : s.liu.tx = .ready) :
    exec .lineIdle s = .next (askArbiter { s with liu := { s.liu with rx := .waiting, recessive := 10, offer := none } }) :=
  congrArg Host.Outcome.next (if_pos ⟨hjoined, hrx, htx⟩)

/-- Settles O51: the count, a bit time of a station that sends nothing, the runs, and the two commands. -/
theorem idleLineAndStartBit : Obligations.IdleLineAndStartBit := by
  refine ⟨fun b l => ⟨?_, ?_, ?_⟩, ?_, fun order f s hjoined hattempt => ⟨fun n hn hrx hzero => ?_, ?_⟩,
    fun s => ⟨fun hjoined hrx htx => ?_, fun hno => ?_, exec_startBit, fun hno => ?_⟩⟩
  · rintro rfl; exact countBit_dominant l
  · rintro rfl hrx; exact countBit_taking hrx
  · rintro rfl hrx; exact countBit_recessive hrx
  · intro i f s hattempt counted taken does
    refine ⟨fun hrx hno => bitTime_seeking hattempt hrx hno,
      fun t hrx hjoined hlevel hcount ht => bitTime_idle hattempt hrx hjoined hlevel hcount ht,
      fun hrx hoffer hlevel => bitTime_waiting hattempt hrx hoffer hlevel,
      fun t hrx hoffer hlevel ht => bitTime_startBit hattempt hrx hoffer hlevel ht, fun hrx hjoined htx => ?_⟩
    have htaking := bitTime_taking (i := i) (f := f) hattempt hrx hjoined htx
    have htaken {commands : List Instr} (h : commandsOfTaken i.order taken = commands) :
        bitTime i (s, f) = (commands, commands.foldl runCommand counted, { taken := taken, sent := f.sent + 1 }) := by
      subst h; exact htaking
    refine ⟨fun h => htaken (commandsOfTaken_unfinished h), fun c t hc ht => ?_⟩
    have hcommands : commandsOfTaken i.order taken = [c] := by
      obtain ⟨h, rfl⟩ | ⟨o, m, h, rfl⟩ | ⟨o, e, h, rfl⟩ | ⟨o, r, h, rfl⟩ := hc
      · exact commandsOfTaken_discarded h
      all_goals exact commandsOfTaken_good h
    refine (htaken hcommands).trans ?_
    rw [List.foldl_cons, List.foldl_nil, runCommand_of_exec ht]
  · exact bitTimes_idle hjoined hattempt hrx hzero hn
  · intro g hg hrx htx hoffer
    have hfirst := bitTime_startBit (i := { level := false, early := false, order := order }) (f := f) hattempt hrx
      (.inl hoffer) rfl (exec_startBit (by exact hjoined) (by simp [hrx]))
    rw [lineBits, List.map_cons, bitTimes, hfirst]
    dsimp only
    rw [bitTimes_arrival (front := []) hg rfl (withFill_ne_nil (wholeFrame_frameBits g).ne_nil)]
    · rfl
    · exact hjoined
    · simp [hattempt]
    · rfl
    · simp [htx]
  · rw [exec_lineIdle hjoined hrx htx]
    exact congrArg Host.Outcome.next ((askArbiter_asks (s := lineIdle s) htx rfl rfl).trans
      (congrArg (fun offer => { s with liu := { s.liu with rx := .waiting, recessive := 10, offer := offer } })
        (arbiterOffer_by_mute (lineIdle s))))
  · exact congrArg Host.Outcome.next (if_neg fun ⟨hjoined, hrx, htx⟩ =>
      hno.elim (fun h => by simp [hjoined] at h) fun h => h.elim (fun h => h hrx) fun h => h htx)
  · exact congrArg Host.Outcome.next (if_neg fun ⟨hjoined, hrx⟩ => hno.elim (fun h => by simp [hjoined] at h) fun h => h hrx)

/-! ### A frame of the station's own (R31 to R34, R42) -/

section Sending
variable {a : Attempt} {n : Nat} {b driven : LineBit} {s : State} (hattempt : s.liu.attempt = some a)
  (hbit : (lineBits a.frame)[n]? = some driven)
include hattempt hbit

theorem commandsOfSending_read (h : driven = b) : commandsOfSending n b s =
    if a.won = false ∧ n = 8 then [.wonArbitration]
    else if n + 1 = (lineBits a.frame).length then [if s.liu.tx = .draining then .drainingEnd else .completed] else [] := by
  simp only [commandsOfSending, hattempt, hbit, if_pos h] <;> rfl

theorem commandsOfSending_mismatch (h : driven ≠ b) : commandsOfSending n b s =
    if driven = true ∧ a.won = false then [.lostArbitration n] else [.bitFault n] := by
  simp only [commandsOfSending, hattempt, hbit, if_neg h]
  cases driven <;> cases a.won <;> rfl

end Sending

theorem startFrame_spec (item : TxItem) (body : FrameBody) (p : Bool) (s : State) :
    ∃ a, (startFrame item body p s).liu.attempt = some a ∧ a.won = false ∧
      (startFrame item body p s).liu.tx = .head ∧ (startFrame item body p s).liu.rx = .taking :=
  ⟨_, rfl, rfl, rfl, rfl⟩

/-- R31: the attempt of an offer, if one begins, is in HEAD, with its receiver in TAKING. -/
theorem beginAttempt_begins {o : Offer} {s : State} {a : Attempt} (hs : s.liu.attempt = none)
    (h : (beginAttempt o s).liu.attempt = some a) :
    a.won = false ∧ (beginAttempt o s).liu.tx = .head ∧ (beginAttempt o s).liu.rx = .taking := by
  have hframe (item : TxItem) (body : FrameBody) (p : Bool) (u : State) (h : (startFrame item body p u).liu.attempt = some a) :
      a.won = false ∧ (startFrame item body p u).liu.tx = .head ∧ (startFrame item body p u).liu.rx = .taking := by
    obtain ⟨a', ha', hwon, htx, hrx⟩ := startFrame_spec item body p u
    obtain rfl : a' = a := Option.some.inj (ha'.symm.trans h)
    exact ⟨hwon, htx, hrx⟩
  unfold beginAttempt at h ⊢
  split at h
  · exact hframe _ _ _ _ h
  · dsimp only at h ⊢
    split at h
    · rw [hs] at h; exact absurd h (by simp)
    · exact hframe _ _ _ _ h
  · exact hframe _ _ _ _ h

theorem attemptOffer_begins {s : State} {a : Attempt} (hs : s.liu.attempt = none)
    (h : (attemptOffer s).liu.attempt = some a) :
    a.won = false ∧ (attemptOffer s).liu.tx = .head ∧ (attemptOffer s).liu.rx = .taking := by
  unfold attemptOffer at h ⊢
  split at h
  · rw [hs] at h; exact absurd h (by simp)
  · next b _ =>
    split at h
    · next hage => rw [if_pos hage]; exact beginAttempt_begins hs h
    · next hage =>
      rw [if_neg hage]
      have hnone : (setLiu (fun l => { l with offer := none }) (withdrawSame b s)).liu.attempt = none := by
        rw [withdrawSame_eq]; simp [hs]
      dsimp only at h ⊢
      split at h
      · next horder => exact beginAttempt_begins hnone h
      · rw [hnone] at h; exact absurd h (by simp)
  · exact beginAttempt_begins hs h
  · exact beginAttempt_begins hs h

/-- R32, R33: a bit time of a station that sends is the count and what its transmitter finds; it delivers nothing to itself. -/
theorem bitTime_sending {i : BitTime} {f : FrameBits} {s : State} {commands : List Instr} (hrx : s.liu.rx = .taking)
    (hcommands : commandsOfSending f.sent i.level (setLiu (countBit i.level) s) = commands)
    (hsilent : receiving (commands.foldl runCommand (setLiu (countBit i.level) s)) = false) :
    bitTime i (s, f) = (commands, commands.foldl runCommand (setLiu (countBit i.level) s),
      { taken := f.taken ++ [i.level], sent := f.sent + 1 }) := by
  have hbegins : attemptBegins i (setLiu (countBit i.level) s) = false := attemptBegins_false i (.inl (by simp [hrx]))
  subst hcommands
  simp [bitTime, hbegins, hrx, commandsOfReceiving, hsilent]

/-- R32: the states of an attempt between its start bit and its end: in HEAD, not won, up to position 8, and in BODY after
it. -/
def attemptAt (a : Attempt) (n : Nat) (s : State) : Prop :=
  s.liu.rx = .taking ∧
    if n ≤ 8 then s.liu.tx = .head ∧ s.liu.attempt = some { a with won := false }
    else s.liu.tx = .body ∧ s.liu.attempt = some { a with won := true }

theorem exec_wonArbitration_head {a : Attempt} {s : State} (hattempt : s.liu.attempt = some a) (htx : s.liu.tx = .head) :
    exec .wonArbitration s = .next { s with liu := { s.liu with tx := .body, attempt := some { a with won := true } } } := by
  show execWonArbitration s = _
  simp only [execWonArbitration, hattempt, if_pos htx]
  rfl

theorem length_withFill_le (run : Nat) (bits : List LineBit) : bits.length ≤ (withFill run bits).length := by
  induction bits generalizing run with
  | nil => exact Nat.zero_le _
  | cons b bits ih =>
    obtain h | h := withFill_cons run b bits
    · have hrest := ih 0
      rw [h]; simp only [List.length_cons]; omega
    · have hrest := ih (if b then run + 1 else 0)
      rw [h]; simp only [List.length_cons]; omega

/-- R27, R28: every frame goes on beyond its head. -/
theorem length_lineBits_gt (f : Frame) : 9 < (lineBits f).length := by
  have hbits : 31 ≤ (frameBits f).length := by
    cases f with
    | mk origin body => cases body <;> simp [frameBits, contentBits, classBits, bodyBits] <;> omega
  have hfill := length_withFill_le 0 (frameBits f)
  rw [lineBits, List.length_cons]
  omega

theorem completeAttempt_liu (a : Attempt) (s : State) : (completeAttempt a s).liu = s.liu := by
  unfold completeAttempt ownMarkCompleted
  cases a.item <;> cases a.frame.body <;> cases a.pending <;> simp [apply_ite State.liu]

theorem attemptAt_head {a : Attempt} {n : Nat} {s : State} (h : n ≤ 8) : attemptAt a n s ↔
    s.liu.rx = .taking ∧ s.liu.tx = .head ∧ s.liu.attempt = some { a with won := false } := by
  rw [attemptAt, if_pos h]

theorem attemptAt_body {a : Attempt} {n : Nat} {s : State} (h : 9 ≤ n) : attemptAt a n s ↔
    s.liu.rx = .taking ∧ s.liu.tx = .body ∧ s.liu.attempt = some { a with won := true } := by
  rw [attemptAt, if_neg (by omega)]

theorem receiving_of_sending {s : State} (h : s.liu.tx = .head ∨ s.liu.tx = .body) : receiving s = false :=
  receiving_eq_false (.inr (.inr (by rcases h with h | h <;> simp [h])))

section ReadBack
variable {a : Attempt} {b : LineBit} {order : MarkOrder} {f : FrameBits} {s : State}
  (hbit : (lineBits a.frame)[f.sent]? = some b) (hat : attemptAt a f.sent s)
include hbit hat

/-- R32: a bit of the head before its last, read back as driven. -/
theorem bitTime_head (hn : f.sent < 8) : ∃ t, attemptAt a (f.sent + 1) t ∧
    bitTime { level := b, early := false, order := order } (s, f) =
      ([], t, { taken := f.taken ++ [b], sent := f.sent + 1 }) := by
  obtain ⟨hrx, htx, hattempt⟩ := (attemptAt_head (by omega)).1 hat
  have hlength := length_lineBits_gt a.frame
  have hcommands : commandsOfSending f.sent b (setLiu (countBit b) s) = [] := by
    rw [commandsOfSending_read (a := { a with won := false }) (by simp [hattempt]) hbit rfl, if_neg (by omega),
      if_neg (show ¬ f.sent + 1 = (lineBits a.frame).length by omega)]
  refine ⟨setLiu (countBit b) s, (attemptAt_head (by omega)).2 ⟨by simp [hrx], by simp [htx], by simp [hattempt]⟩, ?_⟩
  exact bitTime_sending hrx hcommands (receiving_of_sending (.inl (by simp [htx])))

/-- R32: the last bit of the head, read back as driven, wins. -/
theorem bitTime_won (hn : f.sent = 8) : ∃ t, attemptAt a (f.sent + 1) t ∧
    bitTime { level := b, early := false, order := order } (s, f) =
      ([.wonArbitration], t, { taken := f.taken ++ [b], sent := f.sent + 1 }) := by
  obtain ⟨hrx, htx, hattempt⟩ := (attemptAt_head (by omega)).1 hat
  have hcommands : commandsOfSending f.sent b (setLiu (countBit b) s) = [.wonArbitration] := by
    rw [commandsOfSending_read (a := { a with won := false }) (by simp [hattempt]) hbit rfl, if_pos ⟨rfl, hn⟩]
  have hwon := runCommand_of_exec (exec_wonArbitration_head (a := { a with won := false })
    (s := setLiu (countBit b) s) (by simp [hattempt]) (by simp [htx]))
  refine ⟨runCommand (setLiu (countBit b) s) .wonArbitration,
    (attemptAt_body (by omega)).2 ⟨by rw [hwon]; simp [hrx], by rw [hwon], by rw [hwon]⟩, ?_⟩
  exact bitTime_sending hrx hcommands (receiving_of_sending (.inr (by simp [hwon])))

/-- R33: a bit of the body before its last, read back as driven. -/
theorem bitTime_body (hn : 9 ≤ f.sent) (hmore : f.sent + 1 < (lineBits a.frame).length) :
    ∃ t, attemptAt a (f.sent + 1) t ∧ bitTime { level := b, early := false, order := order } (s, f) =
      ([], t, { taken := f.taken ++ [b], sent := f.sent + 1 }) := by
  obtain ⟨hrx, htx, hattempt⟩ := (attemptAt_body hn).1 hat
  have hcommands : commandsOfSending f.sent b (setLiu (countBit b) s) = [] := by
    rw [commandsOfSending_read (a := { a with won := true }) (by simp [hattempt]) hbit rfl, if_neg (by omega),
      if_neg (show ¬ f.sent + 1 = (lineBits a.frame).length by omega)]
  refine ⟨setLiu (countBit b) s, (attemptAt_body (by omega)).2 ⟨by simp [hrx], by simp [htx], by simp [hattempt]⟩, ?_⟩
  exact bitTime_sending hrx hcommands (receiving_of_sending (.inr (by simp [htx])))

/-- R34: the last bit of the frame, read back as driven, completes it. -/
theorem bitTime_completed (hn : 9 ≤ f.sent) (hlast : f.sent + 1 = (lineBits a.frame).length) :
    ∃ t, bitTime { level := b, early := false, order := order } (s, f) =
      ([.completed], t, { taken := f.taken ++ [b], sent := f.sent + 1 }) := by
  obtain ⟨hrx, htx, hattempt⟩ := (attemptAt_body hn).1 hat
  have hcommands : commandsOfSending f.sent b (setLiu (countBit b) s) = [.completed] := by
    rw [commandsOfSending_read (a := { a with won := true }) (by simp [hattempt]) hbit rfl, if_neg (by omega),
      if_pos hlast, if_neg (by simp [htx])]
  have hcompleted := runCommand_of_exec (exec_completed (a := { a with won := true })
    (s := setLiu (countBit b) s) (by simp [hattempt]) (by simp [htx]))
  refine ⟨_, bitTime_sending hrx hcommands (receiving_eq_false (.inr (.inl ?_)))⟩
  rw [List.foldl_cons, List.foldl_nil, hcompleted, completeAttempt_liu]
  simp

end ReadBack

/-- R32 to R34: the bits of a frame after its start bit, read back as driven: won after the head, and completed. -/
theorem bitTimes_sending {a : Attempt} {order : MarkOrder} {front rest : List LineBit} {f : FrameBits} {s : State}
    (hsplit : lineBits a.frame = front ++ rest) (hrest : rest ≠ []) (hsent : f.sent = front.length)
    (hat : attemptAt a f.sent s) :
    (bitTimes (rest.map fun b => { level := b, early := false, order := order }) (s, f)).1 =
      (if f.sent ≤ 8 then [.wonArbitration] else []) ++ [.completed] := by
  induction rest generalizing front f s with
  | nil => exact absurd rfl hrest
  | cons b rest ih =>
    have hlength := length_lineBits_gt a.frame
    have htotal : (lineBits a.frame).length = f.sent + (rest.length + 1) := by rw [hsplit, hsent]; simp
    have hbit : (lineBits a.frame)[f.sent]? = some b := by rw [hsplit, hsent]; simp
    have hnext {commands : List Instr} {t : State} {taken : List LineBit} (hmore : rest ≠ [])
        (ht : attemptAt a (f.sent + 1) t)
        (hbitTime : bitTime { level := b, early := false, order := order } (s, f) =
          (commands, t, { taken := taken, sent := f.sent + 1 })) :
        (bitTimes ((b :: rest).map fun b => { level := b, early := false, order := order }) (s, f)).1 =
          commands ++ ((if f.sent + 1 ≤ 8 then [.wonArbitration] else []) ++ [.completed]) := by
      rw [List.map_cons, bitTimes, hbitTime]
      exact congrArg (commands ++ ·) (ih (front := front ++ [b]) (f := { taken := taken, sent := f.sent + 1 })
        (by rw [hsplit]; simp) hmore (by rw [hsent]; simp) ht)
    obtain hhead | hlast | hbody : f.sent < 8 ∨ f.sent = 8 ∨ 9 ≤ f.sent := by omega
    · obtain ⟨t, ht, hbitTime⟩ := bitTime_head (order := order) hbit hat hhead
      rw [hnext (by rintro rfl; simp at htotal; omega) ht hbitTime, if_pos (by omega), if_pos (by omega), List.nil_append]
    · obtain ⟨t, ht, hbitTime⟩ := bitTime_won (order := order) hbit hat hlast
      rw [hnext (by rintro rfl; simp at htotal; omega) ht hbitTime, if_neg (by omega), if_pos (by omega), List.nil_append]
    · rw [if_neg (by omega), List.nil_append]
      cases rest with
      | nil =>
        obtain ⟨t, hbitTime⟩ := bitTime_completed (order := order) hbit hat hbody (by simp at htotal; omega)
        rw [List.map_cons, bitTimes, hbitTime]
        rfl
      | cons c rest =>
        obtain ⟨t, ht, hbitTime⟩ := bitTime_body (order := order) hbit hat hbody (by simp at htotal; omega)
        rw [hnext (List.cons_ne_nil c rest) ht hbitTime, if_neg (by omega)]
        rfl

/-- R31: the bit time of the start bit begins the attempt of the offer, in HEAD. -/
theorem bitTime_begins {a : Attempt} {order : MarkOrder} {f : FrameBits} {s t : State} (hcan : canAttempt s = true)
    (hoffer : s.liu.offer ≠ none) (hattempt : s.liu.attempt = none)
    (ht : exec .transmissionAttempt { s with liu := { s.liu with recessive := 0 } } = .next t)
    (ha : t.liu.attempt = some a) :
    attemptAt a 1 t ∧ bitTime { level := false, early := false, order := order } (s, f) =
      ([.transmissionAttempt], t, { taken := [], sent := 1 }) := by
  obtain ⟨hjoined, htx, hrx, hmuted⟩ := (canAttempt_iff s).1 hcan
  have hcounted : setLiu (countBit false) s = { s with liu := { s.liu with recessive := 0 } } := rfl
  have hcan' : canAttempt { s with liu := { s.liu with recessive := 0 } } = true := hcan
  have hoffered : attemptOffer { s with liu := { s.liu with recessive := 0 } } = t := by
    rw [exec_transmissionAttempt hcan'] at ht
    exact Host.Outcome.next.inj ht
  obtain ⟨hwon, hhead, htaking⟩ := attemptOffer_begins (s := { s with liu := { s.liu with recessive := 0 } }) hattempt
    (by rw [hoffered]; exact ha)
  rw [hoffered] at hhead htaking
  have hbegins : attemptBegins { level := false, early := false, order := order } (setLiu (countBit false) s) = true := by
    simp [attemptBegins, hcounted, hcan', Option.isSome_iff_ne_none, hoffer]
  have hlength := length_lineBits_gt a.frame
  have hcommands : commandsOfSending 0 false t = [] := by
    rw [commandsOfSending_read (driven := false) ha rfl rfl, if_neg (by omega), if_neg (by omega)]
  refine ⟨(attemptAt_head (by omega)).2 ⟨htaking, hhead, by rw [ha, ← hwon]⟩, ?_⟩
  rw [← hcounted] at ht
  simp [bitTime, hbegins, runCommand_of_exec ht, hcommands, hrx, commandsOfReceiving, htaking]

/-- R32: a position at which arbitration can be lost. -/
theorem canLose_iff (a : Attempt) (position : Nat) : (canLoseAt a.frame position && !a.won) = true ↔
    1 ≤ position ∧ position ≤ 8 ∧ (lineBits a.frame)[position]? = some true ∧ a.won = false := by
  simp only [canLoseAt, Bool.and_eq_true, decide_eq_true_eq, beq_iff_eq, Bool.not_eq_true', and_assoc]
  exact Iff.rfl

/-- Settles O53: what the transmitter finds at a bit, an own frame read back whole, and the commands. -/
theorem arbitrationAndDraining : Obligations.ArbitrationAndDraining := by
  refine ⟨fun a n b driven s hattempt hbit => ⟨?_, fun hne hfault => ?_, fun heq hwon hn => ?_, fun heq hmore hn => ?_,
    fun heq hlast hwon => ?_⟩, fun a order f s t hjoined htx hrx hmuted hoffer hattempt ht ha => ?_,
    fun s => ⟨fun htx => ?_, fun htx => congrArg Host.Outcome.next (if_neg htx)⟩, ?_⟩
  · rintro rfl rfl hwon
    rw [commandsOfSending_mismatch hattempt hbit (by decide), if_pos ⟨rfl, hwon⟩]
  · rw [commandsOfSending_mismatch hattempt hbit hne, if_neg fun ⟨hdriven, hwon⟩ =>
      hfault.elim (fun h => by simp [h] at hdriven) fun h => by simp [h] at hwon]
  · rw [commandsOfSending_read hattempt hbit heq, if_pos ⟨hwon, hn⟩]
  · rw [commandsOfSending_read hattempt hbit heq, if_neg fun ⟨hwon, hn'⟩ =>
      hn.elim (fun h => by simp [h] at hwon) fun h => h hn', if_neg (by omega)]
  · rw [commandsOfSending_read hattempt hbit heq, if_neg fun ⟨hwon', _⟩ => by simp [hwon] at hwon', if_pos hlast]
  · obtain ⟨hat, hfirst⟩ := bitTime_begins (order := order) (f := f) ((canAttempt_iff s).2 ⟨hjoined, htx, hrx, hmuted⟩)
      hoffer hattempt ht ha
    have hsending := bitTimes_sending (order := order) (front := [false]) (f := { taken := [], sent := 1 }) rfl
      (withFill_ne_nil (wholeFrame_frameBits a.frame).ne_nil) rfl hat
    rw [lineBits, List.map_cons, bitTimes, hfirst]
    exact congrArg (Instr.transmissionAttempt :: ·) hsending
  · have htx' : (if joined s then TxState.ready else .off) = if s.ftu.station = .detached then .off else .ready := by
      by_cases h : s.ftu.station = .detached <;> simp [joined, h]
    rw [← htx']
    exact congrArg Host.Outcome.next (if_pos htx)
  · intro a position s hattempt canLose
    have hcan : (canLoseAt a.frame position && !a.won) = true ↔ canLose := canLose_iff a position
    refine ⟨fun h htx => ?_, fun h htx => ?_, fun h => ?_, exec_wonArbitration_head hattempt, fun htx => ?_⟩
    · show execLostArbitration position s = _
      simp only [execLostArbitration, hattempt, if_pos (hcan.2 h), if_pos htx]
      rfl
    · show execLostArbitration position s = _
      have hnot : ¬ s.liu.tx = .head := by simp [htx]
      simp only [execLostArbitration, hattempt, if_pos (hcan.2 h), if_neg hnot, if_pos htx]
      rfl
    · show execLostArbitration position s = _
      simp only [execLostArbitration, hattempt, if_neg (mt hcan.1 h)]
    · show execWonArbitration s = _
      have hnot : ¬ s.liu.tx = .head := by simp [htx]
      simp only [execWonArbitration, hattempt, if_neg hnot, if_pos htx]
      rfl

end Sys2Proof.Machine
end

section
/-! The station port (R161 to R176): WRITE_IMAGE and READ_IMAGE, COMMIT, LEAVE, POST, and the RESET pin. -/

namespace Sys2Proof.Machine

-- Proofs elaborated side by side need more threads than the memory limit of the check holds.
set_option Elab.async false

/-! ### Requests while RESET is high (R176) -/

theorem whenHigh_high {f : State → State} {s : State} (h : s.port.resetLow = false) : whenHigh f s = f s :=
  if_neg (by rw [h]; exact Bool.false_ne_true)

theorem whenHigh_low {f : State → State} {s : State} (h : s.port.resetLow = true) : whenHigh f s = s := if_pos h

theorem joined_eq_false {s : State} (h : joined s = false) : ¬ joined s = true := by rw [h]; exact Bool.false_ne_true

/-! ### The image (R163) -/

theorem imageRangeOk_iff (offset : Half) (length : Byte) :
    imageRangeOk offset length = true ↔ 1 ≤ length.toNat ∧ offset.toNat + length.toNat ≤ 912 := by
  rw [imageRangeOk, Bool.and_eq_true, decide_eq_true_iff, decide_eq_true_iff]
  exact Iff.rfl

theorem exec_writeImage {offset : Half} {length : Byte} {data : List Byte} {s : State} (hhigh : s.port.resetLow = false)
    (hdata : data.length = length.toNat) : exec (.writeImage offset length data) s = .next
      (if joined s then answer [statusLocked] s
      else if imageRangeOk offset length then answer [statusOk] { s with image := writeCells s.image offset.toNat data }
      else answer [statusBadRequest] s) := by
  refine congrArg Host.Outcome.next ((whenHigh_high hhigh).trans ((if_neg (by omega)).trans ?_))
  rw [List.take_of_length_le (Nat.le_of_eq hdata)]

/-- Settles O19: the three answers of a write, and the read. -/
theorem imageWriteAndRead : Obligations.ImageWriteAndRead := by
  refine ⟨fun offset length data s hhigh hdata => ?_, fun offset length s hhigh => ?_⟩
  · rw [exec_writeImage hhigh hdata]
    refine ⟨fun hjoined => by rw [if_pos hjoined]; rfl, fun hjoined hrange => ?_, fun hjoined hlength hrange hmemory => ?_⟩
    · rw [if_neg (joined_eq_false hjoined), if_neg (mt (imageRangeOk_iff offset length).1 hrange)]
      rfl
    · rw [if_neg (joined_eq_false hjoined), if_pos ((imageRangeOk_iff offset length).2 ⟨hlength, hrange⟩)]
      have hinside : offset.toNat + data.length ≤ Config.imageBytes := by rw [hdata]; exact hrange
      exact ⟨_, rfl, memoryWf_writeCells hinside hmemory, readCell_writeCells hinside hmemory⟩
  · refine congrArg Host.Outcome.next ((whenHigh_high hhigh).trans ?_)
    simp only [readImage, imageRangeOk_iff]
    rfl

/-! ### LEAVE (R168) -/

/-- R84: what a release leaves: channels and records changed, and nothing to release. -/
theorem releaseDue_eq (s : State) : releaseDue s =
    { s with channels := (releaseDue s).channels, log := (releaseDue s).log,
             due := { s.due with releasing := [], moments := [] } } :=
  applyAll_frame s.due.releasing (releaseOver s)

theorem releaseDue_of_idle {s : State} (hreleasing : s.due.releasing = []) (hmoments : s.due.moments = []) :
    releaseDue s = s := by
  rw [releaseDue, hreleasing, releaseOver]
  show ({ s with due := { s.due with releasing := [], moments := [] } } : State) = s
  rw [← hreleasing, ← hmoments]

/-- R42: the transmitter drains a frame that it has begun, and the receiver starts over. -/
theorem liuAtLeave_eq (l : Liu) : liuAtLeave l =
    { tx := if l.tx = .head ∨ l.tx = .body ∨ l.tx = .draining then .draining else .off,
      rx := .seeking, offer := none, muted := false, muteLeft := 0, recessive := l.recessive,
      attempt := if l.tx = .head ∨ l.tx = .body ∨ l.tx = .draining then l.attempt else none } := by
  unfold liuAtLeave
  cases l.tx <;> simp

theorem leaveFabric_eq (s : State) : leaveFabric s = { s with
    ftu := { s.ftu with station := .detached, stall := 0, marker := none, holdoverCount := 0, discordCount := 0 }
    liu := { tx := if s.liu.tx = .head ∨ s.liu.tx = .body ∨ s.liu.tx = .draining then .draining else .off,
             rx := .seeking, offer := none, muted := false, muteLeft := 0, recessive := s.liu.recessive,
             attempt := if s.liu.tx = .head ∨ s.liu.tx = .body ∨ s.liu.tx = .draining then s.liu.attempt else none }
    roster := []
    table := List.replicate 64 .cleared
    schedule := []
    channels := Vector.ofFn fun c => { channelOf s c with
      state := if (channelOf s c).state = .disabled then .disabled else .idle, output := false, stagedA := none,
      stagedB := none, pairReady := false, held := none, sampled := none, tapDue := false, sampleOpen := false }
    pub := { s.pub with queue := [], markSlot := none, rollSlot := none }
    due := .none } := by
  rw [← liuAtLeave_eq]; rfl

/-- Settles O22: the release first, and then every block's values. -/
theorem leaveDetaches : Obligations.LeaveDetaches := by
  intro s hhigh
  have hexec : exec .leave s = .next (leaveRequest s) := congrArg Host.Outcome.next (whenHigh_high hhigh)
  refine ⟨fun hjoined => ?_, ?_⟩
  · rw [hexec, leaveRequest, if_neg (joined_eq_false hjoined)]; rfl
  · intro hjoined u
    have hu : u = releaseDue s := rfl
    clear_value u
    subst hu
    refine ⟨releaseDue_eq s, releaseDue_of_idle, ?_⟩
    rw [hexec, leaveRequest, if_pos hjoined, leaveFabric_eq]
    generalize hr : releaseDue s = u
    rw [releaseDue_eq s] at hr
    subst hr
    rfl

/-! ### POST (R169) -/

theorem postHasValue_iff (flags : Byte) : postHasValue flags = true ↔ flags &&& 0x01 = 0x01 := by
  revert flags; decide +kernel

theorem postPublishes_iff (flags : Byte) : postPublishes flags = true ↔ flags &&& 0x02 = 0x02 := by
  revert flags; decide +kernel

/-- Settles O23: the state test, the arguments, and the hand-over. -/
theorem postIsHandedOn : Obligations.PostIsHandedOn := by
  intro tag flags value s hhigh
  have hexec : exec (.post tag flags value) s = .next (postRequest tag flags value s) :=
    congrArg Host.Outcome.next (whenHigh_high hhigh)
  rw [hexec]
  unfold postRequest
  refine ⟨fun hjoined => ?_, fun hjoined hargs => ?_, fun hjoined htag hflags => ?_⟩
  · rw [if_pos (by rw [hjoined]; rfl)]; rfl
  · rw [if_neg (by simp [hjoined]), if_pos hargs]; rfl
  · rw [if_neg (by simp [hjoined]), if_neg (by omega)]
    refine ⟨_, rfl, ?_⟩
    have hparams : (releaseDue s).params = s.params := by rw [releaseDue_eq]
    simp only [publishLocal, postHasValue_iff, postPublishes_iff, hparams]

/-! ### The RESET pin (R176) -/

/-- R176: while RESET is low the port takes nothing of a transaction. -/
theorem exec_low {c : Instr} {s : State} (hc : (transactionBytes c).isSome = true ∨ c = .transactionCutShort)
    (hlow : s.port.resetLow = true) : exec c s = .next s := by
  cases c <;> simp [transactionBytes] at hc <;> exact congrArg Host.Outcome.next (whenHigh_low hlow)

/-- Settles O26: the commands, and the start-up values by definition. -/
theorem resetPinAndNoRequest : Obligations.ResetPinAndNoRequest := by
  refine ⟨fun code s hhigh hcode => ?_, fun s hhigh => congrArg Host.Outcome.next (whenHigh_high hhigh), fun s => rfl,
    fun s => rfl, fun c s hc hlow => exec_low hc hlow, rfl, rfl, rfl, rfl, rfl, rfl, rfl, fun c => ?_, rfl, fun a => rfl, rfl,
    rfl, rfl, rfl, rfl⟩
  · have hunknown : ¬ requestCodes.contains code = true := by simpa [requestCodes] using hcode
    exact congrArg Host.Outcome.next ((whenHigh_high hhigh).trans (if_neg hunknown))
  · rw [channelOf_reset]
    exact ⟨rfl, rfl⟩

end Sys2Proof.Machine
end

section
/-! The image as COMMIT takes it (R162, R164 to R168): the fields of its records, the values of every block, and the order of
the checks (R64, R65, R167). -/

namespace Sys2Proof.Machine

-- Proofs elaborated side by side need more threads than the memory limit of the check holds.
set_option Elab.async false

/-! ### The codes of the image (R165, R166) -/

theorem modeOf_of_mem {code : Byte} {mode : Mode}
    (h : (code, mode) ∈ [(0x00#8, Mode.unused), (0x01, .oneShot), (0x02, .delayed), (0x03, .repeating), (0x04, .paired),
      (0x05, .captureFree), (0x06, .captureClear), (0x07, .qualify)]) : modeOf code = mode := by
  simp only [List.mem_cons, Prod.mk.injEq, List.not_mem_nil, or_false] at h
  obtain ⟨rfl, rfl⟩ | ⟨rfl, rfl⟩ | ⟨rfl, rfl⟩ | ⟨rfl, rfl⟩ | ⟨rfl, rfl⟩ | ⟨rfl, rfl⟩ | ⟨rfl, rfl⟩ | ⟨rfl, rfl⟩ := h <;> rfl

theorem actionOf_of_mem {code : Byte} {action : Action}
    (h : (code, action) ∈ [(0x01#8, Action.arm), (0x02, .halt), (0x03, .correct), (0x04, .loadA), (0x05, .loadB),
      (0x06, .snap)]) : actionOf code = some action := by
  simp only [List.mem_cons, Prod.mk.injEq, List.not_mem_nil, or_false] at h
  obtain ⟨rfl, rfl⟩ | ⟨rfl, rfl⟩ | ⟨rfl, rfl⟩ | ⟨rfl, rfl⟩ | ⟨rfl, rfl⟩ | ⟨rfl, rfl⟩ := h <;> rfl

theorem sourceOf_of_mem {code : Byte} {source : OperandSource}
    (h : (code, source) ∈ [(0x00#8, OperandSource.noOperand), (0x01, .frame), (0x02, .fixed)]) :
    sourceOf code = some source := by
  simp only [List.mem_cons, Prod.mk.injEq, List.not_mem_nil, or_false] at h
  obtain ⟨rfl, rfl⟩ | ⟨rfl, rfl⟩ | ⟨rfl, rfl⟩ := h <;> rfl

/-- R166: a filter byte from 1 to 62 names a station. -/
theorem filterOf_station {code : Byte} {x : StationId} (hlow : 1 ≤ x.toNat) (hhigh : x.toNat ≤ 62)
    (h : code.toNat = x.toNat) : filterOf code = some (.station x) := by
  have hne (v : Byte) (hv : v.toNat ≠ x.toNat) : code ≠ v := fun e => hv (by rw [← e, h])
  have hstation : code.setWidth 6 = x := by
    apply BitVec.eq_of_toNat_eq
    rw [BitVec.toNat_setWidth, h, Nat.mod_eq_of_lt x.isLt]
  rw [filterOf, if_neg (hne 0 (by show 0 ≠ x.toNat; omega)), if_neg (hne 64 (by show 64 ≠ x.toNat; omega)),
    if_neg (hne 65 (by show 65 ≠ x.toNat; omega)), if_pos (by omega), hstation]

theorem setWidth_tag {x : Half} (h : x ≤ 1023#16) : (x.setWidth 10).toNat = x.toNat := by
  have hx : x.toNat ≤ 1023 := h
  rw [BitVec.toNat_setWidth, Nat.mod_eq_of_lt (by omega)]

/-! ### COMMIT (R162, R167, R168) -/

/-- R43: the LIU at a COMMIT: a frame still draining goes on. -/
theorem liuAtCommit_eq (l : Liu) : liuAtCommit l =
    { tx := if l.tx = .draining then .draining else .ready, rx := .seeking, offer := none,
      attempt := if l.tx = .draining then l.attempt else none, muted := false, muteLeft := 0, recessive := 0 } := by
  unfold liuAtCommit
  by_cases h : l.tx = .draining
  · simp [h]
  · simp [h]

theorem exec_commit {s : State} (hhigh : s.port.resetLow = false) : exec .commit s = .next (commitRequest s) :=
  congrArg Host.Outcome.next (whenHigh_high hhigh)

/-- Settles O20: the fields record by record, and the three answers. -/
theorem commitJoins : Obligations.CommitJoins := by
  refine ⟨?_, ?_, fun s hhigh => ?_⟩
  · intro m c o cfg
    exact ⟨fun x hx hcode => modeOf_of_mem (by rw [hcode]; exact hx), rfl, rfl, rfl, rfl, rfl, rfl, rfl, rfl, rfl, rfl⟩
  · intro m i o e
    refine ⟨rfl, rfl, fun htag => setWidth_tag htag, fun h => ?_, fun h => ?_, fun h => ?_, fun x hlow hhigh h => ?_,
      fun h => ?_, fun x hx hcode => ?_, rfl, fun x hx hcode => ?_, rfl⟩
    · exact congrArg (fun code => (filterOf code).getD .any) h
    · exact congrArg (fun code => (filterOf code).getD .any) h
    · exact congrArg (fun code => (filterOf code).getD .any) h
    · exact congrArg (Option.getD · OriginFilter.any) (filterOf_station hlow hhigh h)
    · exact Nat.mod_eq_of_lt (Nat.lt_succ_of_le h)
    · exact congrArg (Option.getD · Action.arm) (actionOf_of_mem (by rw [hcode]; exact hx))
    · exact congrArg (Option.getD · OperandSource.noOperand) (sourceOf_of_mem (by rw [hcode]; exact hx))
  · rw [exec_commit hhigh, commitRequest]
    refine ⟨fun hjoined => by rw [if_pos hjoined]; rfl, fun reason item hjoined hvalid => ?_, fun hjoined hvalid => ?_⟩
    · rw [if_neg (joined_eq_false hjoined), hvalid]; rfl
    · have hlisten : epochLength (readCell s.image 1) <<< 1 = 2#32 * (1#32 <<< (readCell s.image 1).toNat) := by
        rw [BitVec.shiftLeft_eq_mul_twoPow, BitVec.mul_comm]; rfl
      rw [if_neg (joined_eq_false hjoined), hvalid, ← hlisten, ← liuAtCommit_eq]
      rfl

/-! ### The checks of a channel record (R94, R165) -/

theorem isOutputMode_modeOf (code : Byte) : isOutputMode (modeOf code) = true ↔ code.toNat ∈ [1, 2, 3, 4] := by
  revert code; decide +kernel

theorem isCaptureMode_modeOf (code : Byte) : isCaptureMode (modeOf code) = true ↔ code.toNat ∈ [5, 6] := by
  revert code; decide +kernel

theorem modeOf_eq_qualify (code : Byte) : modeOf code = .qualify ↔ code.toNat = 7 := by
  revert code; decide +kernel

theorem isInputMode_modeOf (code : Byte) : isInputMode (modeOf code) = true ↔ code.toNat ∈ [5, 6] ∨ code.toNat = 7 := by
  revert code; decide +kernel

theorem modeOf_ne_unused (code : Byte) : modeOf code ≠ .unused ↔ 1 ≤ code.toNat ∧ code.toNat ≤ 7 := by
  revert code; decide +kernel

theorem readHalf_toNat (m : List Host.Cell) (a : Nat) :
    (readHalf m a).toNat = 256 * (readCell m a).toNat + (readCell m (a + 1)).toNat := by
  have hlow := (readCell m (a + 1)).isLt
  rw [readHalf, half, BitVec.toNat_append, Nat.shiftLeft_eq, Nat.mul_comm _ (2 ^ 8), ← Nat.two_pow_add_eq_or_of_lt hlow]

theorem tagFieldOk_iff (field : Half) : tagFieldOk field = true ↔ field.toNat ≤ 1023 ∨ field.toNat = 65535 := by
  simp only [tagFieldOk, Bool.or_eq_true, decide_eq_true_eq, beq_iff_eq, ← BitVec.toNat_inj]
  exact or_congr Nat.lt_succ_iff Iff.rfl

theorem implies_iff_not_or {a b : Bool} : (!a || b) = true ↔ (a = true → b = true) := by
  cases a <;> cases b <;> decide

theorem channelRecordOk_iff (m : List Host.Cell) (c : Nat) :
    let o := 16 + 16 * c
    let code := readCell m o
    let cfg := channelConfigAt m c
    channelRecordOk m c = true ↔ code.toNat = 0 ∨
      code.toNat ≤ 7 ∧ cfg.rateTap.toNat ≤ 3 ∧ cfg.flags.toNat ≤ 15 ∧ tagFieldOk cfg.startTag = true ∧
        (code.toNat ∈ [1, 2, 3, 4] → cfg.idleLevel.toNat ≤ 1 ∧ tagFieldOk cfg.endTag = true) ∧
        (code.toNat ∈ [5, 6] → cfg.edge.toNat ≤ 2) ∧ (code.toNat = 7 → cfg.activeLevel.toNat ≤ 1) ∧
        (code.toNat ∈ [5, 6] ∨ code.toNat = 7 → tagFieldOk cfg.inputTag = true) := by
  intro o code cfg
  have hmode : cfg.mode = modeOf code := rfl
  have hzero : code == 0 ↔ code.toNat = 0 := by rw [beq_iff_eq, ← BitVec.toNat_inj]; rfl
  have hqualify : (cfg.mode != .qualify) = !(cfg.mode == .qualify) := rfl
  have hcheck : channelRecordOk m c = (code == 0 ||
    (decide (code.toNat ≤ 7) && decide (cfg.rateTap.toNat ≤ 3) && decide (cfg.flags.toNat ≤ 15) &&
      tagFieldOk cfg.startTag &&
      (!isOutputMode cfg.mode || (decide (cfg.idleLevel.toNat ≤ 1) && tagFieldOk cfg.endTag)) &&
      (!isCaptureMode cfg.mode || decide (cfg.edge.toNat ≤ 2)) &&
      (cfg.mode != .qualify || decide (cfg.activeLevel.toNat ≤ 1)) &&
      (!isInputMode cfg.mode || tagFieldOk cfg.inputTag))) := rfl
  rw [hcheck, hqualify, hmode]
  simp only [Bool.or_eq_true (code == 0), Bool.and_eq_true, implies_iff_not_or, decide_eq_true_eq, hzero, beq_iff_eq,
    isOutputMode_modeOf, isCaptureMode_modeOf, isInputMode_modeOf, modeOf_eq_qualify, and_assoc]

/-! ### The checks of a trigger entry (R64, R65, R166) -/

theorem filterOf_isSome (code : Byte) :
    (filterOf code).isSome = true ↔ code.toNat ≤ 62 ∨ code.toNat = 64 ∨ code.toNat = 65 := by
  revert code; decide +kernel

theorem actionOf_eq_some_iff (code : Byte) (x : Action) : actionOf code = some x ↔ code.toNat = (actionCode x).toNat := by
  cases x <;> (revert code; decide +kernel)

/-- R64 condition 6: the source that an action goes with. -/
theorem suits_iff (x : Action) (code : Byte) : (sourceOf code).any (sourceSuits x) = true ↔
    if x ∈ [.arm, .halt, .snap] then code.toNat = 0 else code.toNat ∈ [1, 2] := by
  cases x <;> (revert code; decide +kernel)

/-- R65: the actions that a mode code allows. -/
theorem actionAllowed_modeOf (code : Byte) (x : Action) (h : modeOf code ≠ .unused) :
    actionAllowed (modeOf code) x = true ↔ match x with
      | .arm | .halt | .snap => True
      | .correct => code.toNat ∈ [1, 2]
      | .loadA => code.toNat ∈ [1, 2, 3, 4, 7]
      | .loadB => code.toNat ∈ [2, 4] := by
  cases x <;> (revert code; decide +kernel)

/-- R64 conditions 5 and 6, for a channel that has a mode. -/
theorem entryAction_iff {mode action source : Byte} (hmode : modeOf mode ≠ .unused) :
    (match actionOf action, sourceOf source with
      | some x, some src => actionAllowed (modeOf mode) x && sourceSuits x src
      | _, _ => false) = true ↔
    action.toNat ∈ [1, 2, 6] ∧ source.toNat = 0 ∨
      action.toNat = 3 ∧ mode.toNat ∈ [1, 2] ∧ source.toNat ∈ [1, 2] ∨
      action.toNat = 4 ∧ mode.toNat ∈ [1, 2, 3, 4, 7] ∧ source.toNat ∈ [1, 2] ∨
      action.toNat = 5 ∧ mode.toNat ∈ [2, 4] ∧ source.toNat ∈ [1, 2] := by
  have hmatch : (match actionOf action, sourceOf source with
      | some x, some src => actionAllowed (modeOf mode) x && sourceSuits x src
      | _, _ => false) = true ↔ ∃ x, actionOf action = some x ∧ actionAllowed (modeOf mode) x = true ∧
        (sourceOf source).any (sourceSuits x) = true := by
    cases actionOf action <;> cases sourceOf source <;> simp
  rw [hmatch]
  simp only [actionOf_eq_some_iff, actionAllowed_modeOf _ _ hmode, suits_iff]
  constructor
  · rintro ⟨x, haction, hallowed, hsuits⟩
    cases x <;> simp_all [actionCode]
  · rintro (⟨haction, hsource⟩ | ⟨haction, hmodes, hsource⟩ | ⟨haction, hmodes, hsource⟩ | ⟨haction, hmodes, hsource⟩)
    · simp only [List.mem_cons, List.not_mem_nil, or_false] at haction
      obtain h | h | h := haction
      · exact ⟨.arm, h, trivial, hsource⟩
      · exact ⟨.halt, h, trivial, hsource⟩
      · exact ⟨.snap, h, trivial, hsource⟩
    · exact ⟨.correct, haction, hmodes, hsource⟩
    · exact ⟨.loadA, haction, hmodes, hsource⟩
    · exact ⟨.loadB, haction, hmodes, hsource⟩

theorem trigEntryOk_iff (m : List Host.Cell) (i : Nat) :
    let o := 144 + 12 * i
    let channel := readCell m (o + 4)
    let mode := readCell m (16 + 16 * channel.toNat)
    let action := (readCell m (o + 5)).toNat
    let source := (readCell m (o + 9)).toNat
    let filter := (readCell m (o + 3)).toNat
    trigEntryOk m (readCell m 0) i = true ↔ (readCell m o).getLsbD 0 = false ∨
      (readHalf m (o + 1)).toNat ≤ 1023 ∧ (filter ≤ 62 ∨ filter = 64 ∨ filter = 65) ∧ filter ≠ (readCell m 0).toNat ∧
        channel.toNat ≤ 7 ∧ (1 ≤ mode.toNat ∧ mode.toNat ≤ 7) ∧
        (action ∈ [1, 2, 6] ∧ source = 0 ∨ action = 3 ∧ mode.toNat ∈ [1, 2] ∧ source ∈ [1, 2] ∨
          action = 4 ∧ mode.toNat ∈ [1, 2, 3, 4, 7] ∧ source ∈ [1, 2] ∨
          action = 5 ∧ mode.toNat ∈ [2, 4] ∧ source ∈ [1, 2]) := by
  intro o channel mode action source filter
  have hcheck : trigEntryOk m (readCell m 0) i = (!(readCell m o).getLsbD 0 ||
    (decide ((readHalf m (o + 1)).toNat ≤ 1023) &&
      (filterOf (readCell m (o + 3))).isSome && readCell m (o + 3) != readCell m 0 &&
      decide (channel.toNat ≤ 7) && modeOf mode != .unused &&
      (match actionOf (readCell m (o + 5)), sourceOf (readCell m (o + 9)) with
        | some a, some src => actionAllowed (modeOf mode) a && sourceSuits a src
        | _, _ => false))) := rfl
  rw [hcheck]
  simp only [Bool.or_eq_true, Bool.and_eq_true, Bool.not_eq_true', decide_eq_true_eq, filterOf_isSome, bne_iff_ne,
    ← BitVec.toNat_inj, ne_eq, and_assoc]
  refine or_congr Iff.rfl (and_congr Iff.rfl (and_congr Iff.rfl (and_congr Iff.rfl (and_congr Iff.rfl ?_))))
  rw [← and_assoc (a := 1 ≤ mode.toNat), ← modeOf_ne_unused]
  exact and_congr_right fun hmode => entryAction_iff hmode

/-! ### The order of the checks (R167) -/

theorem firstFailing_eq_none_iff {ok : Nat → Bool} {n : Nat} : firstFailing ok n = none ↔ ∀ i, i < n → ok i = true := by
  simp [firstFailing]

theorem firstFailing_eq_some {ok : Nat → Bool} {n i : Nat} (h : firstFailing ok n = some i) :
    i < n ∧ ok i = false ∧ ∀ j, j < i → ok j = true := by
  obtain ⟨hfails, hmem, hbefore⟩ := List.find?_range_eq_some.1 h
  exact ⟨List.mem_range.1 hmem, by simpa using hfails, fun j hj => by simpa using hbefore j hj⟩

/-- What a validation says: none exactly where `passes` holds, and otherwise a reason and item as `fails` tells. -/
def Reports (v : Option (Byte × Byte)) (passes : Prop) (fails : Byte → Byte → Prop) : Prop :=
  (v = none ↔ passes) ∧ ∀ reason item, v = some (reason, item) → fails reason item

/-- One check in the order: it reports its own reason, or what comes after it does. -/
theorem Reports.check {f c : Prop} [Decidable f] {rest : Option (Byte × Byte)} {reason item : Byte} {passes : Prop}
    {fails : Byte → Byte → Prop} (hf : f ↔ ¬ c) (hpasses : passes → c) (hfails : ¬ c → fails reason item)
    (hrest : c → Reports rest passes fails) : Reports (if f then some (reason, item) else rest) passes fails := by
  by_cases h : c
  · rw [if_neg fun hfail => hf.1 hfail h]; exact hrest h
  · rw [if_pos (hf.2 h)]
    refine ⟨⟨fun hnone => absurd hnone (by simp), fun hp => absurd (hpasses hp) h⟩, fun r i heq => ?_⟩
    obtain ⟨rfl, rfl⟩ := Prod.mk.inj (Option.some.inj heq)
    exact hfails h

/-- R167: the checks of the channels and of the trigger entries, after those of the station section. -/
theorem reports_items {channels entries : Nat → Bool} {before : Prop} (hbefore : before) :
    Reports (match firstFailing channels 8 with
      | some c => some (8, BitVec.ofNat 8 c)
      | none =>
        match firstFailing entries 64 with
        | some i => some (9, BitVec.ofNat 8 i)
        | none => none)
      ((before ∧ ∀ c, c < 8 → channels c = true) ∧ ∀ i, i < 64 → entries i = true)
      (fun reason item =>
        (reason = 8 ∧ item.toNat < 8 ∧ before ∧ channels item.toNat = false ∧ ∀ c, c < item.toNat → channels c = true) ∨
        (reason = 9 ∧ item.toNat < 64 ∧ (before ∧ ∀ c, c < 8 → channels c = true) ∧ entries item.toNat = false ∧
          ∀ i, i < item.toNat → entries i = true)) := by
  have hitem {n : Nat} (h : n < 64) : (BitVec.ofNat 8 n).toNat = n := by
    rw [BitVec.toNat_ofNat, Nat.mod_eq_of_lt (by omega)]
  cases hchannels : firstFailing channels 8 with
  | some c =>
    obtain ⟨hlt, hfails, hfirst⟩ := firstFailing_eq_some hchannels
    refine ⟨⟨fun h => absurd h (by simp), fun h => absurd (h.1.2 c hlt) (by simp [hfails])⟩, fun reason item h => ?_⟩
    obtain ⟨rfl, rfl⟩ := Prod.mk.inj (Option.some.inj h)
    rw [hitem (by omega)]
    exact .inl ⟨rfl, hlt, hbefore, hfails, hfirst⟩
  | none =>
    have hok := firstFailing_eq_none_iff.1 hchannels
    cases hentries : firstFailing entries 64 with
    | some i =>
      obtain ⟨hlt, hfails, hfirst⟩ := firstFailing_eq_some hentries
      refine ⟨⟨fun h => absurd h (by simp), fun h => absurd (h.2 i hlt) (by simp [hfails])⟩, fun reason item h => ?_⟩
      obtain ⟨rfl, rfl⟩ := Prod.mk.inj (Option.some.inj h)
      rw [hitem hlt]
      exact .inr ⟨rfl, hlt, ⟨hbefore, hok⟩, hfails, hfirst⟩
    | none =>
      exact ⟨⟨fun _ => ⟨⟨hbefore, hok⟩, firstFailing_eq_none_iff.1 hentries⟩, fun _ => rfl⟩, fun _ _ h => absurd h (by simp)⟩

theorem Reports.mono {v : Option (Byte × Byte)} {passes : Prop} {fails fails' : Byte → Byte → Prop}
    (h : Reports v passes fails) (hfails : ∀ reason item, fails reason item → fails' reason item) :
    Reports v passes fails' :=
  ⟨h.1, fun reason item hv => hfails reason item (h.2 reason item hv)⟩

/-- Settles O21: the two kinds of record, and the checks of the station section one after the other. -/
theorem validationOrder : Obligations.ValidationOrder := by
  intro m byte word tagged
  have htagged (a : Nat) : tagFieldOk (readHalf m a) = true ↔ tagged a := by
    rw [tagFieldOk_iff, readHalf_toNat]
  refine ⟨fun c => ?_, fun i => ?_, ?_⟩
  · intro o
    refine (channelRecordOk_iff m c).trans (or_congr Iff.rfl (and_congr Iff.rfl (and_congr Iff.rfl (and_congr Iff.rfl
      (and_congr (htagged _) (and_congr (imp_congr Iff.rfl (and_congr Iff.rfl (htagged _))) ?_))))))
    have hinput := htagged (o + 14)
    rw [imp_and, imp_and, ← hinput, or_imp]
    exact ⟨fun ⟨hedge, hlevel, hcapture, hqualify⟩ => ⟨⟨hedge, hcapture⟩, hlevel, hqualify⟩,
      fun ⟨⟨hedge, hcapture⟩, hlevel, hqualify⟩ => ⟨hedge, hlevel, hcapture, hqualify⟩⟩
  · intro o mode
    refine (trigEntryOk_iff m i).trans ?_
    rw [readHalf_toNat, and_assoc]
  · intro id k w interval age copies okId okEpoch okWindow okRoll okAge okCopies okHoldover okChannels
    have hw : (readHalf m 2).toNat = w := readHalf_toNat m 2
    have hvalidate : Reports (validate m) (okChannels ∧ ∀ i, i < 64 → trigEntryOk m (readCell m 0) i = true)
        fun reason item =>
      (reason = 1 ∧ item = 0 ∧ ¬ okId) ∨ (reason = 2 ∧ item = 1 ∧ okId ∧ ¬ okEpoch) ∨
      (reason = 3 ∧ item = 2 ∧ okEpoch ∧ ¬ okWindow) ∨ (reason = 4 ∧ item = 8 ∧ okWindow ∧ ¬ okRoll) ∨
      (reason = 5 ∧ item = 9 ∧ okRoll ∧ ¬ okAge) ∨ (reason = 6 ∧ item = 10 ∧ okAge ∧ ¬ okCopies) ∨
      (reason = 7 ∧ item = 7 ∧ okCopies ∧ ¬ okHoldover) ∨
      (reason = 8 ∧ item.toNat < 8 ∧ okHoldover ∧ channelRecordOk m item.toNat = false ∧
        ∀ c, c < item.toNat → channelRecordOk m c = true) ∨
      (reason = 9 ∧ item.toNat < 64 ∧ okChannels ∧ trigEntryOk m (readCell m 0) item.toNat = false ∧
        ∀ i, i < item.toNat → trigEntryOk m (readCell m 0) i = true) := by
      unfold validate
      simp only [hw]
      refine Reports.check Iff.rfl (fun ⟨⟨⟨⟨⟨⟨⟨⟨hid, _⟩, _⟩, _⟩, _⟩, _⟩, _⟩, _⟩, _⟩ => hid)
        (fun h => .inl ⟨rfl, rfl, h⟩) fun hid => ?_
      refine Reports.check Iff.rfl (fun ⟨⟨⟨⟨⟨⟨⟨⟨_, hk⟩, _⟩, _⟩, _⟩, _⟩, _⟩, _⟩, _⟩ => hk)
        (fun h => .inr (.inl ⟨rfl, rfl, hid, fun hall => h hall.2⟩)) fun hk => ?_
      refine Reports.check Iff.rfl (fun ⟨⟨⟨⟨⟨⟨⟨_, hwindow⟩, _⟩, _⟩, _⟩, _⟩, _⟩, _⟩ => hwindow)
        (fun h => .inr (.inr (.inl ⟨rfl, rfl, ⟨hid, hk⟩, fun hall => h hall.2⟩))) fun hwindow => ?_
      refine Reports.check Iff.rfl (fun ⟨⟨⟨⟨⟨⟨_, hroll⟩, _⟩, _⟩, _⟩, _⟩, _⟩ => hroll)
        (fun h => .inr (.inr (.inr (.inl ⟨rfl, rfl, ⟨⟨hid, hk⟩, hwindow⟩, fun hall => h hall.2⟩)))) fun hroll => ?_
      refine Reports.check Iff.rfl (fun ⟨⟨⟨⟨⟨_, hage⟩, _⟩, _⟩, _⟩, _⟩ => hage)
        (fun h => .inr (.inr (.inr (.inr (.inl ⟨rfl, rfl, ⟨⟨⟨hid, hk⟩, hwindow⟩, hroll⟩, fun hall => h hall.2⟩)))))
        fun hage => ?_
      refine Reports.check Iff.rfl (fun ⟨⟨⟨⟨_, hcopies⟩, _⟩, _⟩, _⟩ => hcopies)
        (fun h => .inr (.inr (.inr (.inr (.inr (.inl
          ⟨rfl, rfl, ⟨⟨⟨⟨hid, hk⟩, hwindow⟩, hroll⟩, hage⟩, fun hall => h hall.2⟩)))))) fun hcopies => ?_
      refine Reports.check Decidable.not_not.symm (fun ⟨⟨⟨_, hholdover⟩, _⟩, _⟩ => hholdover)
        (fun h => .inr (.inr (.inr (.inr (.inr (.inr (.inl
          ⟨rfl, rfl, ⟨⟨⟨⟨⟨hid, hk⟩, hwindow⟩, hroll⟩, hage⟩, hcopies⟩, fun hall => h hall.2⟩))))))) fun hholdover => ?_
      have hbefore : okHoldover := ⟨⟨⟨⟨⟨⟨hid, hk⟩, hwindow⟩, hroll⟩, hage⟩, hcopies⟩, hholdover⟩
      exact (reports_items hbefore).mono fun _ _ h => .inr (.inr (.inr (.inr (.inr (.inr (.inr h))))))
    exact hvalidate

end Sys2Proof.Machine
end

section
/-! What the station port's reads return (R171 to R175): the bytes of a field, records, status and snapshots. -/

namespace Sys2Proof.Machine

-- Proofs elaborated side by side need more threads than the memory limit of the check holds.
set_option Elab.async false

/-! ### The bytes of a field (R161) -/

theorem be16_eq (x : Half) : be16 x = [BitVec.ofNat 8 (x.toNat / 256), BitVec.ofNat 8 x.toNat] := by
  have hhigh : x.extractLsb' 8 8 = BitVec.ofNat 8 (x.toNat / 256) :=
    congrArg (BitVec.ofNat 8) (Nat.shiftRight_eq_div_pow x.toNat 8)
  rw [be16, hhigh]
  rfl

theorem be32_eq (x : Time) : be32 x = [BitVec.ofNat 8 (x.toNat / 16777216), BitVec.ofNat 8 (x.toNat / 65536),
    BitVec.ofNat 8 (x.toNat / 256), BitVec.ofNat 8 x.toNat] := by
  have hbyte (n : Nat) : x.extractLsb' n 8 = BitVec.ofNat 8 (x.toNat / 2 ^ n) :=
    congrArg (BitVec.ofNat 8) (Nat.shiftRight_eq_div_pow x.toNat n)
  rw [be32, hbyte 24, hbyte 16, hbyte 8]
  rfl

/-- The bytes of a tag in its 16-bit field. -/
theorem be16_tag (x : Tag) :
    be16 (x.setWidth 16) = [BitVec.ofNat 8 (x.toNat / 256), BitVec.ofNat 8 x.toNat] := by
  have hwidth : (x.setWidth 16).toNat = x.toNat := BitVec.toNat_setWidth_of_le (by omega)
  rw [be16_eq, hwidth]

theorem setWidth_eq_ofNat {w : Nat} (x : BitVec w) (n : Nat) : x.setWidth n = BitVec.ofNat n x.toNat :=
  (BitVec.ofNat_toNat n x).symm

theorem getD_map_toNat {w : Nat} (x : Option (BitVec w)) : (x.map BitVec.toNat).getD 0 = (x.getD 0).toNat := by
  cases x <;> rfl

/-- Flags of different weights: their `or` is their sum. -/
theorem flagByte_or_two (a b : Bool) : flagByte 1 a ||| flagByte 2 b = flagByte 1 a + flagByte 2 b := by
  cases a <;> cases b <;> rfl

theorem flagByte_or_five (a b c d e : Bool) :
    flagByte 1 a ||| flagByte 2 b ||| flagByte 4 c ||| flagByte 8 d ||| flagByte 16 e =
      flagByte 1 a + flagByte 2 b + flagByte 4 c + flagByte 8 d + flagByte 16 e := by
  revert a b c d e; decide

theorem flagByte_or_seven (a b c d e f g : Bool) :
    flagByte 1 a ||| flagByte 2 b ||| flagByte 4 c ||| flagByte 8 d ||| flagByte 16 e ||| flagByte 32 f |||
        flagByte 64 g =
      flagByte 1 a + flagByte 2 b + flagByte 4 c + flagByte 8 d + flagByte 16 e + flagByte 32 f + flagByte 64 g := by
  revert a b c d e f g; decide +kernel

/-! ### Records (R171, R172) -/

theorem length_recordBytes (r : Record) : (recordBytes r).length = 16 := rfl

theorem exec_readRecord {s : State} (hhigh : s.port.resetLow = false) : exec .readRecord s = .next (readRecord s) :=
  congrArg Host.Outcome.next (whenHigh_high hhigh)

theorem removeRecord_eq {r : Record} {rest : List Record} {s : State} (h : s.log.records = r :: rest) :
    removeRecord s = { s with
      port := { s.port with readOut := false }
      log := { lost := 0, records := if s.log.lost = 0 then rest else rest ++
        [{ kind := .lost, time := s.ftu.time, value := some (s.log.lost.setWidth 32) }] } } := by
  unfold removeRecord
  rw [h]
  by_cases hlost : s.log.lost = 0
  · simp only [if_pos hlost, List.tail_cons]
  · simp only [if_neg hlost, List.tail_cons, recordNow]

/-- Settles O24: the layout, the codes, and the two commands. -/
theorem recordReadAndRemoved : Obligations.RecordReadAndRemoved := by
  refine ⟨fun r => ?_, by decide, fun s hhigh hempty => ?_, fun r rest s hhigh hrecords => ⟨?_, length_recordBytes r⟩,
    fun r rest s hread hrecords => ?_, fun s hread => ?_⟩
  · intro bit time value tag
    have htag : tag = (r.tag.getD 0).toNat := getD_map_toNat r.tag
    rw [recordBytes, recordPresence, flagByte_or_five, be16_tag, be32_eq, be32_eq, setWidth_eq_ofNat, getD_map_toNat,
      htag]
    rfl
  · rw [exec_readRecord hhigh, readRecord, hempty]; rfl
  · rw [exec_readRecord hhigh, readRecord, hrecords]; rfl
  · have htaken : s.port.readOut = true ∧ s.log.records ≠ [] := ⟨hread, by rw [hrecords]; exact List.cons_ne_nil r rest⟩
    exact congrArg Host.Outcome.next ((if_pos htaken).trans (removeRecord_eq hrecords))
  · exact congrArg Host.Outcome.next (if_neg fun h => by simp [hread] at h)

/-! ### Status and snapshots (R174, R175) -/

theorem readIndexed_of_le {α : Type} {items : List α} {bytes : α → List Byte} {index : Byte} {s : State}
    (h : items.length ≤ index.toNat) : readIndexed items bytes index s = answer [0x05] s := by
  unfold readIndexed
  rw [List.getElem?_eq_none h]
  rfl

theorem readIndexed_of_get {α : Type} {items : List α} {bytes : α → List Byte} {index : Byte} {s : State} {x : α}
    (h : items[index.toNat]? = some x) : readIndexed items bytes index s = answer (0x00 :: bytes x) s := by
  unfold readIndexed
  rw [h]
  rfl

theorem rosterBytes_eq (e : RosterEntry) : rosterBytes e =
    [BitVec.ofNat 8 e.origin.toNat] ++ be32 e.joinedEpoch ++ be32 e.lastHeard ++
      [flagByte 1 e.lastSequence.isSome + flagByte 2 e.reported.isSome, e.lastSequence.getD 0] ++
      (match e.reported with
        | some r => [stationCode r.state, BitVec.ofNat 8 r.rosterSize.toNat, BitVec.ofNat 8 r.occupancy.toNat]
        | none => [0, 0, 0]) := by
  obtain ⟨origin, joined, heard, sequence, reported⟩ := e
  rw [rosterBytes, rosterPresence, flagByte_or_two, setWidth_eq_ofNat]
  cases reported with
  | none => rfl
  | some r => simp only [Option.map_some, Option.getD_some, setWidth_eq_ofNat]; rfl

theorem actionBytes_eq (a : PendingAction) : actionBytes a =
    be32 a.due ++ [BitVec.ofNat 8 a.channel.val, actionCode a.action,
      flagByte 1 a.operand.isSome + flagByte 2 a.cause.sequence.isSome] ++ be16 (a.operand.getD 0) ++
    [BitVec.ofNat 8 a.cause.origin.toNat] ++ be16 (BitVec.ofNat 16 a.cause.tag.toNat) ++
    [a.cause.sequence.getD 0, a.cause.entry] := by
  rw [actionBytes, actionPresence, flagByte_or_two, setWidth_eq_ofNat, setWidth_eq_ofNat]

theorem channelFlags_eq (ch : Channel) : channelFlags ch =
    flagByte 1 ch.stagedA.isSome + flagByte 2 ch.stagedB.isSome + flagByte 4 ch.held.isSome + flagByte 8 ch.pairReady +
      flagByte 16 ch.output + flagByte 32 (decide (ch.sampled = some true)) + flagByte 64 ch.sampled.isSome := by
  have hsampled : (ch.sampled == some true) = decide (ch.sampled = some true) := Bool.eq_iff_iff.2 (by rw [beq_iff_eq, decide_eq_true_eq])
  rw [channelFlags, hsampled, flagByte_or_seven]

theorem getElem?_channels (s : State) (c : ChannelId) :
    s.channels.toList[(BitVec.ofNat 8 c.val).toNat]? = some (channelOf s c) := by
  have hindex : (BitVec.ofNat 8 c.val).toNat = c.val := by
    rw [BitVec.toNat_ofNat, Nat.mod_eq_of_lt (by omega)]
  rw [hindex, Vector.getElem?_toList, Vector.getElem?_eq_getElem c.isLt]
  rfl

/-- Settles O25: the codes, and each read. -/
theorem statusAndSnapshots : Obligations.StatusAndSnapshots := by
  unfold Obligations.StatusAndSnapshots
  intro bit two four
  have htwo : two = be16 := (funext be16_eq).symm
  have hfour : four = be32 := (funext be32_eq).symm
  rw [htwo, hfour]
  refine ⟨by decide, by decide, by decide, by decide, fun s hhigh => ?_⟩
  have hrelease := releaseDue_eq s
  intro u
  have hread {c : Instr} {f : State → State} {t : State} (hc : exec c s = .next (whenHigh f s)) (hf : f s = t) :
      exec c s = .next t := hc.trans (congrArg Host.Outcome.next ((whenHigh_high hhigh).trans hf))
  have hschedule : u.schedule = s.schedule := by show (releaseDue s).schedule = _; rw [hrelease]
  refine ⟨releaseDue_of_idle, hread rfl ?_, fun index h => hread rfl (readIndexed_of_le h), fun index e h => ?_,
    fun index h => hread rfl (readIndexed_of_le (hschedule ▸ h)), fun index a h => ?_,
    fun channel h => hread rfl (readIndexed_of_le ?_), fun c => ?_⟩
  · have hstatus : statusBytes u = statusBytes { s with log := u.log } := by
      show statusBytes (releaseDue s) = _; rw [hrelease]; rfl
    show answer (_ :: statusBytes u) u = _
    rw [hstatus]
    simp only [statusBytes, counterBytes, List.append_assoc]
    rfl
  · refine hread rfl ((readIndexed_of_get h).trans ?_)
    rw [rosterBytes_eq]
    rfl
  · refine hread rfl ((readIndexed_of_get (hschedule ▸ h)).trans ?_)
    rw [actionBytes_eq]
    rfl
  · rw [Vector.length_toList]; omega
  · intro ch
    refine hread rfl ((readIndexed_of_get (getElem?_channels s c)).trans ?_)
    rw [channelBytes, configBytes, channelFlags_eq]
    simp only [List.append_assoc]
    rfl

end Sys2Proof.Machine
end

section
/-! Transactions at the station port (R161, R162, R171, R176): the bytes of a request, its bits, the pins in SPI mode 0, and
what SDO shifts out. -/

namespace Sys2Proof.Machine

-- Proofs elaborated side by side need more threads than the memory limit of the check holds.
set_option Elab.async false

/-! ### The bytes of a request -/

theorem half_be16 (x : Half) : half (x.extractLsb' 8 8) (x.extractLsb' 0 8) = x :=
  (BitVec.extractLsb'_append_extractLsb'_eq_extractLsb' (start₁ := 0) (len₁ := 8) (len₂ := 8) rfl).trans
    BitVec.extractLsb'_eq_self

theorem wellFormed_unknownRequest {code : Byte} (h : (Instr.unknownRequest code).wellFormed = true) :
    code ∉ requestCodes := by
  have hcontains : (!requestCodes.contains code) = true := h
  simpa using hcontains

theorem requestOf_unknown {code : Byte} (h : code ∉ requestCodes) (args : List Byte) :
    requestOf (code :: args) = .unknownRequest code := by
  simp only [requestCodes, List.mem_cons, List.not_mem_nil, or_false, not_or] at h
  obtain ⟨h1, h2, h3, h4, h5, h6, h7, h8, h9, h10⟩ := h
  simp only [requestOf, if_neg h1, if_neg h2, if_neg h3, if_neg h4, if_neg h5, if_neg h6, if_neg h7, if_neg h8, if_neg h9,
    if_neg h10]

/-- R161: a request is taken at its last byte, and the bytes after it are ignored. -/
theorem requestOf_append {c : Instr} {bytes : List Byte} (hwf : c.wellFormed = true)
    (hbytes : transactionBytes c = some bytes) (more : List Byte) : requestOf (bytes ++ more) = c := by
  cases c <;> cases hbytes
  case writeImage offset length data =>
    have hdata : data.length = length.toNat := by simpa [Instr.wellFormed] using hwf
    show (if (data ++ more).length < length.toNat then Instr.transactionCutShort
      else .writeImage (half (offset.extractLsb' 8 8) (offset.extractLsb' 0 8)) length ((data ++ more).take length.toNat)) = _
    rw [if_neg (by rw [List.length_append]; omega), half_be16, ← hdata, List.take_left]
  case readImage offset length => exact congrArg (Instr.readImage · length) (half_be16 offset)
  case post tag flags value => exact congr (congrArg (Instr.post · flags) (half_be16 tag)) (half_be16 value)
  case unknownRequest code => exact requestOf_unknown (wellFormed_unknownRequest hwf) more
  all_goals rfl

/-- R161: with a byte missing the transaction is cut short. -/
theorem requestOf_take {c : Instr} {bytes : List Byte} (hwf : c.wellFormed = true)
    (hbytes : transactionBytes c = some bytes) {k : Nat} (hk : k < bytes.length) :
    requestOf (bytes.take k) = .transactionCutShort := by
  cases c <;> cases hbytes
  case writeImage offset length data =>
    have hdata : data.length = length.toNat := by simpa [Instr.wellFormed] using hwf
    match k, hk with
    | 0, _ | 1, _ | 2, _ | 3, _ => rfl
    | n + 4, hk =>
      have hn : n < data.length := by
        have hlength : (0x01 :: be16 offset ++ [length] ++ data).length = data.length + 4 := rfl
        omega
      exact if_pos (by rw [List.length_take]; omega)
  case readImage offset length =>
    match k, hk with
    | 0, _ | 1, _ | 2, _ | 3, _ => rfl
  case post tag flags value =>
    match k, hk with
    | 0, _ | 1, _ | 2, _ | 3, _ | 4, _ | 5, _ => rfl
  case readRoster | readSchedule | readChannel =>
    match k, hk with
    | 0, _ | 1, _ => rfl
  all_goals
    match k, hk with
    | 0, _ => rfl

/-! ### The bits of a request -/

theorem bytesOfBits_append (bytes : List Byte) (tail : List Bool) :
    bytesOfBits (bytes.flatMap bitsOf ++ tail) = bytes ++ bytesOfBits tail := by
  induction bytes with
  | nil => rfl
  | cons b rest ih => rw [List.flatMap_cons, List.append_assoc, bytesOfBits_byte, ih]; rfl

theorem length_flatMap_bitsOf (bytes : List Byte) : (bytes.flatMap bitsOf).length = 8 * bytes.length := by
  induction bytes with
  | nil => rfl
  | cons b rest ih => rw [List.flatMap_cons, List.length_append, length_bitsOf, ih, List.length_cons]; omega

/-- The bits taken so far: whole bytes, and the bits of one that is not complete. -/
theorem bytesOfBits_take (bytes : List Byte) (k : Nat) (hk : k ≤ 8 * bytes.length) :
    bytesOfBits ((bytes.flatMap bitsOf).take k) = bytes.take (k / 8) := by
  have hwhole : ((bytes.take (k / 8)).flatMap bitsOf).length = 8 * (k / 8) := by
    rw [length_flatMap_bitsOf, List.length_take]; omega
  have hsplit : (bytes.flatMap bitsOf).take k = (bytes.take (k / 8)).flatMap bitsOf ++
      ((bytes.drop (k / 8)).flatMap bitsOf).take (k % 8) := by
    conv =>
      lhs
      rw [← List.take_append_drop (k / 8) bytes, List.flatMap_append, List.take_append, hwhole]
    rw [List.take_of_length_le (by omega), show k - 8 * (k / 8) = k % 8 by omega]
  rw [hsplit]
  exact bytesOfBits_sent _ (by rw [List.length_take]; omega)

/-- The bits ask for the request `c` from the `n`-th on, and are a transaction cut short before. -/
def TakenAt (n : Nat) (c : Instr) (l : List Bool) : Prop :=
  ∀ k, k ≤ l.length → requestOfBits (l.take k) = if k < n then .transactionCutShort else c

theorem takenAt_request {c : Instr} {bytes : List Byte} (hwf : c.wellFormed = true)
    (hbytes : transactionBytes c = some bytes) (tail : List Bool) :
    TakenAt (8 * bytes.length) c (bytes.flatMap bitsOf ++ tail) := by
  have hlength := length_flatMap_bitsOf bytes
  intro k _
  by_cases hk : k < 8 * bytes.length
  · rw [if_pos hk, List.take_append_of_le_length (by omega), requestOfBits, bytesOfBits_take bytes k (by omega)]
    exact requestOf_take hwf hbytes (by omega)
  · rw [if_neg hk, List.take_append, List.take_of_length_le (by omega), requestOfBits, bytesOfBits_append]
    exact requestOf_append hwf hbytes _

theorem TakenAt.take {n : Nat} {c : Instr} {l : List Bool} (h : TakenAt n c l) (k : Nat) : TakenAt n c (l.take k) := by
  intro j hj
  have hle : j ≤ k ∧ j ≤ l.length := by rw [List.length_take] at hj; omega
  rw [List.take_take, Nat.min_eq_left hle.1]
  exact h j hle.2

theorem TakenAt.whole {n : Nat} {c : Instr} {l : List Bool} (h : TakenAt n c l) :
    requestOfBits l = if l.length < n then .transactionCutShort else c := by
  have hl := h l.length (Nat.le_refl _)
  rwa [List.take_length] at hl

/-! ### The commands that bits make -/

theorem commandsTaken_self (l : List Bool) : commandsTaken l l = [] := if_neg fun h => h.2 h.1

theorem commandsTaken_nil (l : List Bool) : commandsTaken l [] = [] := if_neg fun h => h.2 rfl

/-- R161: the request is taken with the last bit of its last byte. -/
theorem TakenAt.commandsTaken {n : Nat} {c : Instr} {old : List Bool} {b : Bool} (hc : c ≠ .transactionCutShort)
    (h : TakenAt n c (old ++ [b])) :
    commandsTaken old (old ++ [b]) = if old.length < n ∧ n ≤ old.length + 1 then [c] else [] := by
  have hold : requestOfBits old = if old.length < n then .transactionCutShort else c := by
    have htake := h.take old.length
    rw [List.take_left] at htake
    exact htake.whole
  have hnew : requestOfBits (old ++ [b]) = if old.length + 1 < n then .transactionCutShort else c := by
    rw [h.whole, List.length_append, List.length_singleton]
  unfold Machine.commandsTaken
  rw [hold, hnew]
  by_cases hlow : old.length < n
  · by_cases hhigh : old.length + 1 < n
    · rw [if_pos hlow, if_pos hhigh, if_neg (by simp), if_neg (by omega)]
    · rw [if_pos hlow, if_neg hhigh, if_pos ⟨rfl, hc⟩, if_pos (by omega)]
  · rw [if_neg hlow, if_neg fun h => hc h.1, if_neg (by omega)]

/-! ### The pins while a transaction is clocked (SPI mode 0) -/

def portHigh : PortPins := { cs := true, sck := false, sdi := false, reset := true }

def portLow : PortPins := { portHigh with cs := false }

/-- The pins after these bits: SCK is high behind the last of them, which SDI still shows. -/
def pinsAfter (l : List Bool) : PortPins :=
  { portLow with sck := !l.isEmpty, sdi := l.getLast?.getD false }

def shifterOf (l : List Bool) : Shifter := { selected := true, sampled := l, shown := l.length - 1 }

/-- R161: CS falls, and every bit is put on SDI while SCK falls, and sampled as SCK rises. -/
def clockedBits (l : List Bool) : List PortPins :=
  l.flatMap fun b => [{ portLow with sdi := b }, { portLow with sck := true, sdi := b }]

/-- What the shifter comes to over the levels of the pins. -/
def pinRun (p : PortPins × Shifter) (l : List PortPins) : PortPins × Shifter :=
  l.foldl (fun p now => (now, shifterAfter p.1 now p.2)) p

theorem commandsOfPins_append (p : PortPins × Shifter) (l rest : List PortPins) :
    commandsOfPins p.1 p.2 (l ++ rest) =
      commandsOfPins p.1 p.2 l ++ commandsOfPins (pinRun p l).1 (pinRun p l).2 rest := by
  induction l generalizing p with
  | nil => rfl
  | cons now l ih =>
    show commandsAt p.1 now p.2 ++ commandsOfPins now (shifterAfter p.1 now p.2) (l ++ rest) = _
    rw [ih (now, shifterAfter p.1 now p.2), ← List.append_assoc]
    rfl

theorem pinsAfter_concat (l : List Bool) (b : Bool) :
    pinsAfter (l ++ [b]) = { portLow with sck := true, sdi := b } := by
  simp [pinsAfter]

/-- The falling SCK before a bit: the next one stands on SDO, but for the first. -/
theorem shifterAfter_bit_low (l : List Bool) (b : Bool) :
    shifterAfter (pinsAfter l) { portLow with sdi := b } (shifterOf l) = { shifterOf l with shown := l.length } := by
  cases l with
  | nil => exact shifterAfter_still rfl rfl rfl rfl
  | cons a rest => exact shifterAfter_falling rfl rfl rfl rfl rfl rfl

theorem shifterAfter_bit_high (l : List Bool) (b : Bool) :
    shifterAfter { portLow with sdi := b } { portLow with sck := true, sdi := b } { shifterOf l with shown := l.length } =
      shifterOf (l ++ [b]) := by
  have hlength : l.length = (l ++ [b]).length - 1 := by simp
  exact (shifterAfter_rising rfl rfl rfl rfl rfl rfl).trans
    (congrArg (Shifter.mk true (l ++ [b])) hlength)

/-- One bit: the pins, the shifter, and the command that it may complete. -/
theorem pinRun_bit (l : List Bool) (b : Bool) :
    pinRun (pinsAfter l, shifterOf l) (clockedBits [b]) = (pinsAfter (l ++ [b]), shifterOf (l ++ [b])) := by
  rw [pinsAfter_concat, ← shifterAfter_bit_high, ← shifterAfter_bit_low]
  rfl

/-- While CS is low, a change of the pins can only take a request. -/
theorem commandsAt_low {before now : PortPins} {x : Shifter} (h : now.cs = false) :
    commandsAt before now x = commandsTaken x.sampled (shifterAfter before now x).sampled := by
  rw [commandsAt, h, Bool.and_false, Bool.false_and, if_neg Bool.false_ne_true, List.append_nil]

theorem commandsOfPins_bit (l : List Bool) (b : Bool) :
    commandsOfPins (pinsAfter l) (shifterOf l) (clockedBits [b]) = commandsTaken l (l ++ [b]) := by
  have hlow := commandsAt_low (before := pinsAfter l) (now := { portLow with sdi := b }) (x := shifterOf l) rfl
  have hhigh := commandsAt_low (before := { portLow with sdi := b }) (now := { portLow with sck := true, sdi := b })
    (x := { shifterOf l with shown := l.length }) rfl
  rw [shifterAfter_bit_low] at hlow
  rw [shifterAfter_bit_high] at hhigh
  show commandsAt (pinsAfter l) { portLow with sdi := b } (shifterOf l) ++
    (commandsAt { portLow with sdi := b } { portLow with sck := true, sdi := b }
      (shifterAfter (pinsAfter l) { portLow with sdi := b } (shifterOf l)) ++ []) = _
  rw [shifterAfter_bit_low, hlow, hhigh, List.append_nil]
  exact congrArg (· ++ commandsTaken l (l ++ [b])) (commandsTaken_self l)

theorem clockedBits_cons (b : Bool) (l : List Bool) : clockedBits (b :: l) = clockedBits [b] ++ clockedBits l := rfl

theorem pinRun_append (p : PortPins × Shifter) (l rest : List PortPins) :
    pinRun p (l ++ rest) = pinRun (pinRun p l) rest := List.foldl_append

theorem pinRun_bits (old l : List Bool) :
    pinRun (pinsAfter old, shifterOf old) (clockedBits l) = (pinsAfter (old ++ l), shifterOf (old ++ l)) := by
  induction l generalizing old with
  | nil => rw [List.append_nil]; rfl
  | cons b rest ih => rw [clockedBits_cons, pinRun_append, pinRun_bit, ih, List.append_assoc]; rfl

/-- R161: over a run of bits the request is taken once, where its last bit is among them. -/
theorem commandsOfPins_bits {n : Nat} {c : Instr} (hc : c ≠ .transactionCutShort) (old l : List Bool)
    (h : TakenAt n c (old ++ l)) : commandsOfPins (pinsAfter old) (shifterOf old) (clockedBits l) =
      if old.length < n ∧ n ≤ (old ++ l).length then [c] else [] := by
  induction l generalizing old with
  | nil => rw [List.append_nil, if_neg (by omega)]; rfl
  | cons b rest ih =>
    have hnext : old ++ b :: rest = (old ++ [b]) ++ rest := by rw [List.append_assoc]; rfl
    have hbit : TakenAt n c (old ++ [b]) := by
      have htake := h.take (old ++ [b]).length
      rwa [hnext, List.take_left] at htake
    rw [clockedBits_cons, commandsOfPins_append (pinsAfter old, shifterOf old), commandsOfPins_bit, pinRun_bit,
      ih (old ++ [b]) (hnext ▸ h), hbit.commandsTaken hc, hnext]
    simp only [List.length_append, List.length_singleton]
    by_cases hnow : old.length < n ∧ n ≤ old.length + 1
    · rw [if_pos hnow, if_neg (by omega), if_pos (by omega)]; rfl
    · rw [if_neg hnow, List.nil_append]
      exact ite_congr (propext (by omega)) (fun _ => rfl) fun _ => rfl

/-! ### Whole transactions -/

/-- R161: CS falls, and these bits are clocked. -/
def clockedIn (l : List Bool) : List PortPins := portLow :: clockedBits l

theorem pinRun_clockedIn (l : List Bool) : pinRun (portHigh, noShifter) (clockedIn l) = (pinsAfter l, shifterOf l) :=
  pinRun_bits [] l

theorem commandsOfPins_clockedIn (l : List Bool) :
    commandsOfPins portHigh noShifter (clockedIn l) = commandsOfPins (pinsAfter []) (shifterOf []) (clockedBits l) := rfl

/-- R161, R171: CS rises after the bits. -/
theorem commandsOfPins_rise (l : List Bool) :
    commandsOfPins (pinsAfter l) (shifterOf l) [portLow, portHigh] = commandsAtRise l := by
  have hshifter : shifterAfter (pinsAfter l) portLow (shifterOf l) = { shifterOf l with shown := l.length } :=
    shifterAfter_bit_low l false
  have hlow : commandsAt (pinsAfter l) portLow (shifterOf l) = [] := by
    rw [commandsAt_low rfl, hshifter]
    exact commandsTaken_self l
  have hhigh : commandsAt portLow portHigh { shifterOf l with shown := l.length } = commandsAtRise l := by
    rw [commandsAt, shifterAfter_ends (.inl rfl)]
    exact congrArg (· ++ commandsAtRise l) (commandsTaken_nil l)
  show commandsAt (pinsAfter l) portLow (shifterOf l) ++
    (commandsAt portLow portHigh (shifterAfter (pinsAfter l) portLow (shifterOf l)) ++ []) = _
  rw [hlow, hshifter, hhigh, List.nil_append, List.append_nil]

/-- R176: SCK is ignored outside a transaction while CS stays low. -/
theorem commandsOfPins_unselected {before : PortPins} {l : List PortPins} (hbefore : before.cs = false)
    (hl : ∀ p ∈ l, p.cs = false ∧ p.reset = true) : commandsOfPins before noShifter (l ++ [portHigh]) = [] := by
  induction l generalizing before with
  | nil =>
    show commandsAt before portHigh noShifter ++ [] = []
    rw [commandsAt, shifterAfter_ends (.inl rfl)]
    exact congrArg (· ++ [] ++ []) (commandsTaken_self [])
  | cons now rest ih =>
    obtain ⟨hcs, hreset⟩ := hl now List.mem_cons_self
    show commandsAt before now noShifter ++ commandsOfPins now (shifterAfter before now noShifter) (rest ++ [portHigh]) = []
    rw [commandsAt_low hcs, shifterAfter_unselected hbefore hcs hreset rfl, commandsTaken_self, List.nil_append]
    exact ih hcs fun p hp => hl p (List.mem_cons_of_mem now hp)

/-- The pins while bits are clocked: CS is low and RESET high. -/
theorem of_mem_clockedIn {l : List Bool} {p : PortPins} (h : p ∈ clockedIn l) : p.cs = false ∧ p.reset = true := by
  rcases List.mem_cons.1 h with rfl | h
  · exact ⟨rfl, rfl⟩
  · obtain ⟨b, -, hp⟩ := List.mem_flatMap.1 h
    simp only [List.mem_cons, List.not_mem_nil, or_false] at hp
    rcases hp with rfl | rfl <;> exact ⟨rfl, rfl⟩

/-- R176: RESET ends a transaction before its request is taken, and SCK is ignored until CS next falls. -/
theorem commandsOfPins_reset (old l : List Bool) :
    commandsOfPins (pinsAfter old) (shifterOf old) ({ portLow with reset := false } :: clockedIn l ++ [portLow, portHigh]) =
      [] := by
  have hends : shifterAfter (pinsAfter old) { portLow with reset := false } (shifterOf old) = noShifter :=
    shifterAfter_ends (.inr rfl)
  have hsplit : clockedIn l ++ [portLow, portHigh] = (clockedIn l ++ [portLow]) ++ [portHigh] := by
    rw [List.append_assoc]; rfl
  have hrest := commandsOfPins_unselected (before := { portLow with reset := false }) (l := clockedIn l ++ [portLow]) rfl
    fun p hp => (List.mem_append.1 hp).elim of_mem_clockedIn fun h => by rw [List.mem_singleton.1 h]; exact ⟨rfl, rfl⟩
  show commandsAt (pinsAfter old) { portLow with reset := false } (shifterOf old) ++
    commandsOfPins { portLow with reset := false }
      (shifterAfter (pinsAfter old) { portLow with reset := false } (shifterOf old))
      (clockedIn l ++ [portLow, portHigh]) = []
  rw [commandsAt_low rfl, hends, hsplit, hrest, List.append_nil]
  exact commandsTaken_nil old

/-! ### What SDO shifts out (R161) -/

theorem getElem?_flatMap_bitsOf (bytes : List Byte) (n : Nat) :
    (bytes.flatMap bitsOf)[n]? = bytes[n / 8]?.map (·.getMsbD (n % 8)) := by
  induction bytes generalizing n with
  | nil => rfl
  | cons b rest ih =>
    have hlength := length_bitsOf b
    rw [List.flatMap_cons]
    by_cases hn : n < 8
    · have hbit : (bitsOf b)[n]? = some (b.getMsbD n) := by
        rw [bitsOf, List.getElem?_map, List.getElem?_range hn]; rfl
      rw [List.getElem?_append_left (by omega), hbit, Nat.div_eq_of_lt hn, Nat.mod_eq_of_lt hn]
      rfl
    · rw [List.getElem?_append_right (by omega), ih, hlength, show n / 8 = (n - 8) / 8 + 1 by omega,
        show (n - 8) % 8 = n % 8 by omega]
      rfl

/-- The bytes on SDO: 0x00 while the request goes in, the response, and 0x00 from there on. -/
theorem sdoByte_eq (taken : Nat) (response : List Byte) (n : Nat) :
    sdoByte taken response n = ((List.replicate taken 0 ++ response)[n]?).getD 0 := by
  unfold sdoByte
  by_cases hn : n < taken
  · rw [if_pos hn, List.getElem?_append_left (by rwa [List.length_replicate]), List.getElem?_replicate_of_lt hn]
    rfl
  · rw [if_neg hn, List.getElem?_append_right (by rw [List.length_replicate]; omega), List.length_replicate]

theorem getElem?_append_zeros (bytes : List Byte) {n m : Nat} (hn : n < m) :
    (bytes ++ List.replicate m 0)[n]? = some ((bytes[n]?).getD 0) := by
  by_cases hlt : n < bytes.length
  · rw [List.getElem?_append_left hlt, List.getElem?_eq_getElem hlt]; rfl
  · rw [List.getElem?_append_right (by omega), List.getElem?_replicate_of_lt (by omega),
      List.getElem?_eq_none (by omega)]
    rfl

/-- SDO over the transaction of a request that the station answers. -/
theorem sdoAt_low {c : Instr} {bytes : List Byte} {s t : State} (hbytes : transactionBytes c = some bytes)
    (hexec : exec c s = .next t) (n : Nat) : sdoAt c s true n = .shifts (sdoByte bytes.length t.port.response n) := by
  unfold sdoAt responseOf
  rw [hbytes, hexec]
  rfl

theorem sdoBitAt_low {c : Instr} {bytes : List Byte} {s t : State} (hbytes : transactionBytes c = some bytes)
    (hexec : exec c s = .next t) (n : Nat) :
    sdoBitAt c s true n = some ((sdoByte bytes.length t.port.response (n / 8)).getMsbD (n % 8)) := by
  unfold sdoBitAt
  rw [sdoAt_low hbytes hexec]

theorem shiftedOut_eq {c : Instr} {bytes : List Byte} {s t : State} (hbytes : transactionBytes c = some bytes)
    (hexec : exec c s = .next t) (clocked : Nat) : shiftedOut c s clocked =
      (List.replicate bytes.length 0 ++ t.port.response ++ List.replicate clocked 0).take clocked := by
  have hshifted : shiftedOut c s clocked = (List.range clocked).map (sdoByte bytes.length t.port.response) := by
    unfold shiftedOut responseOf
    rw [hbytes, hexec]
    rfl
  rw [hshifted]
  refine List.ext_getElem? fun n => ?_
  by_cases hn : n < clocked
  · rw [List.getElem?_map, List.getElem?_range hn, List.getElem?_take_of_lt hn, getElem?_append_zeros _ hn, ← sdoByte_eq]
    rfl
  · rw [List.getElem?_eq_none (by simp; omega), List.getElem?_eq_none (by simp; omega)]

theorem getElem?_bitsShiftedOut {c : Instr} {bytes : List Byte} {s t : State} (hbytes : transactionBytes c = some bytes)
    (hexec : exec c s = .next t) {n clocks : Nat} (hn : n < clocks) :
    (bitsShiftedOut c s clocks)[n]? = sdoBitAt c s true n := by
  have hbits : sdoBitAt c s true =
      some ∘ fun n => (sdoByte bytes.length t.port.response (n / 8)).getMsbD (n % 8) :=
    funext (sdoBitAt_low hbytes hexec)
  rw [bitsShiftedOut, hbits, List.filterMap_eq_map, List.getElem?_map, List.getElem?_range hn]
  rfl

theorem length_bitsShiftedOut {c : Instr} {bytes : List Byte} {s t : State} (hbytes : transactionBytes c = some bytes)
    (hexec : exec c s = .next t) (clocks : Nat) : (bitsShiftedOut c s clocks).length = clocks := by
  have hbits : sdoBitAt c s true =
      some ∘ fun n => (sdoByte bytes.length t.port.response (n / 8)).getMsbD (n % 8) :=
    funext (sdoBitAt_low hbytes hexec)
  rw [bitsShiftedOut, hbits, List.filterMap_eq_map, List.length_map, List.length_range]

theorem bitsShiftedOut_eq {c : Instr} {bytes : List Byte} {s t : State} (hbytes : transactionBytes c = some bytes)
    (hexec : exec c s = .next t) (clocks : Nat) : bitsShiftedOut c s clocks =
      ((List.replicate bytes.length 0 ++ t.port.response ++ List.replicate clocks 0).flatMap bitsOf).take clocks := by
  refine List.ext_getElem? fun n => ?_
  by_cases hn : n < clocks
  · rw [getElem?_bitsShiftedOut hbytes hexec hn, sdoBitAt_low hbytes hexec, List.getElem?_take_of_lt hn,
      getElem?_flatMap_bitsOf, getElem?_append_zeros _ (Nat.lt_of_le_of_lt (Nat.div_le_self n 8) hn), ← sdoByte_eq]
    rfl
  · rw [List.getElem?_eq_none (by rw [length_bitsShiftedOut hbytes hexec]; omega),
      List.getElem?_eq_none (by rw [List.length_take]; omega)]

/-- R161: before the request is taken nothing but 0 stands on SDO. -/
theorem sdoBitAt_cutShort {s : State} (hhigh : s.port.resetLow = false) (n : Nat) :
    sdoBitAt .transactionCutShort s true n = some false := by
  have hexec : exec .transactionCutShort s = .next (answer [] s) := congrArg Host.Outcome.next (whenHigh_high hhigh)
  unfold sdoBitAt sdoAt responseOf
  rw [hexec]
  exact congrArg some (BitVec.getMsbD_zero ..)

/-! ### A request and its transaction -/

theorem ne_transactionCutShort {c : Instr} {bytes : List Byte} (hbytes : transactionBytes c = some bytes) :
    c ≠ .transactionCutShort := by
  rintro rfl
  exact absurd hbytes (by simp [transactionBytes])

theorem length_transactionBytes_pos {c : Instr} {bytes : List Byte} (hbytes : transactionBytes c = some bytes) :
    0 < bytes.length := by
  cases c <;> cases hbytes <;> exact Nat.succ_pos _

theorem commandsOfPins_clockedIn_rise (l : List Bool) :
    commandsOfPins portHigh noShifter (clockedIn l ++ [portLow, portHigh]) =
      commandsOfPins portHigh noShifter (clockedIn l) ++ commandsAtRise l := by
  rw [commandsOfPins_append (portHigh, noShifter), pinRun_clockedIn, commandsOfPins_rise]

/-- R161, R171: the pins over a whole request, and over what follows it while CS stays low. -/
theorem commandsOfPins_request {c : Instr} {n : Nat} {l : List Bool} (hc : c ≠ .transactionCutShort) (hn : 0 < n)
    (hle : n ≤ l.length) (h : TakenAt n c l) :
    commandsOfPins portHigh noShifter (clockedIn l) = [c] ∧
      commandsOfPins portHigh noShifter (clockedIn l ++ [portLow, portHigh]) =
        if c = .readRecord ∧ 18 * 8 ≤ l.length then [c, .recordRemoved] else [c] := by
  have hcommands : commandsOfPins portHigh noShifter (clockedIn l) = [c] :=
    (commandsOfPins_bits hc [] l h).trans (if_pos ⟨hn, hle⟩)
  refine ⟨hcommands, ?_⟩
  have hrequest : requestOfBits l = c := by rw [h.whole, if_neg (by omega)]
  have hlength : recordShiftedOut (l.length / 8) = true ↔ 18 * 8 ≤ l.length := by
    rw [recordShiftedOut, decide_eq_true_eq]; omega
  rw [commandsOfPins_clockedIn_rise, hcommands, commandsAtRise, hrequest, if_neg hc]
  simp only [hlength]
  by_cases hrecord : c = .readRecord ∧ 18 * 8 ≤ l.length
  · rw [if_pos hrecord, if_pos hrecord]; rfl
  · rw [if_neg hrecord, if_neg hrecord]; rfl

/-- R161, R176: the pins over a request that CS or RESET ends too early. -/
theorem commandsOfPins_tooShort {c : Instr} {n : Nat} {l : List Bool} (hc : c ≠ .transactionCutShort)
    (hlt : l.length < n) (h : TakenAt n c l) :
    commandsOfPins portHigh noShifter (clockedIn l) = [] ∧
      commandsOfPins portHigh noShifter (clockedIn l ++ [portLow, portHigh]) = [.transactionCutShort] ∧
      ∀ more, commandsOfPins portHigh noShifter
        (clockedIn l ++ { portLow with reset := false } :: clockedIn more ++ [portLow, portHigh]) = [] := by
  have hcommands : commandsOfPins portHigh noShifter (clockedIn l) = [] :=
    (commandsOfPins_bits hc [] l h).trans (if_neg fun hend => absurd hend.2 (by rw [List.nil_append]; omega))
  refine ⟨hcommands, ?_, fun more => ?_⟩
  · rw [commandsOfPins_clockedIn_rise, hcommands, commandsAtRise, h.whole, if_pos hlt, if_pos rfl]; rfl
  · rw [List.append_assoc, commandsOfPins_append (portHigh, noShifter), pinRun_clockedIn, hcommands]
    exact commandsOfPins_reset l more

/-- Settles O17: the bytes, the bits, the pins, and SDO. -/
theorem requestRoundTrip : Obligations.RequestRoundTrip := by
  intro c bytes more hwf hbytes bits high low clocked commands seen
  have hc := ne_transactionCutShort hbytes
  have hlength : bits.length = 8 * bytes.length := length_flatMap_bitsOf bytes
  have htaken (tail : List Bool) : TakenAt (8 * bytes.length) c (bits ++ tail) := takenAt_request hwf hbytes tail
  have hrequest (tail : List Bool) : requestOfBits (bits ++ tail) = c := by
    rw [(htaken tail).whole, if_neg (by rw [List.length_append]; omega)]
  have hshort (k : Nat) (hk : k < 8 * bytes.length) : TakenAt (8 * bytes.length) c (bits.take k) := by
    have htake := (htaken []).take k
    rwa [List.append_nil] at htake
  have hlt (k : Nat) (hk : k < 8 * bytes.length) : (bits.take k).length < 8 * bytes.length := by
    rw [List.length_take]; omega
  have hcut (k : Nat) (hk : k < 8 * bytes.length) : requestOfBits (bits.take k) = .transactionCutShort := by
    rw [(hshort k hk).whole, if_pos (hlt k hk)]
  refine ⟨requestOf_append hwf hbytes more, fun k => requestOf_take hwf hbytes, fun tail => ⟨hrequest tail, ?_⟩,
    fun k hk => ⟨hcut k hk, commandsOfPins_tooShort hc (hlt k hk) (hshort k hk)⟩,
    fun l => congrArg Prod.snd (pinRun_clockedIn l), fun s t hhigh hexec => ?_⟩
  · exact commandsOfPins_request hc (Nat.mul_pos (by decide) (length_transactionBytes_pos hbytes))
      (by rw [List.length_append]; omega) (htaken tail)
  have hbyte (n : Nat) : sdoAt c s true n =
      .shifts (((List.replicate bytes.length 0 ++ t.port.response)[n]?).getD 0) := by
    rw [sdoAt_low hbytes hexec, sdoByte_eq]
  refine ⟨fun n hn => ?_, fun n b hb => ?_, fun n hn => ?_, fun n => ⟨rfl, rfl⟩,
    fun m => ⟨by simp [shiftedOut], shiftedOut_eq hbytes hexec m⟩,
    fun clocks => ⟨length_bitsShiftedOut hbytes hexec clocks, bitsShiftedOut_eq hbytes hexec clocks⟩,
    fun n => ⟨(getElem?_bitsShiftedOut hbytes hexec (Nat.lt_succ_self n)).symm, fun tail => ?_, fun k hk => ?_, fun l => rfl⟩⟩
  · rw [sdoAt_low hbytes hexec, sdoByte, if_pos hn]
  · rw [sdoAt_low hbytes hexec, sdoByte, if_neg (by omega), Nat.add_sub_cancel_left, hb]; rfl
  · rw [hbyte, List.getElem?_eq_none (by rw [List.length_append, List.length_replicate]; omega)]; rfl
  · unfold sdoOfPins; rw [hrequest]
  · unfold sdoOfPins; rw [hcut k hk]; exact sdoBitAt_cutShort hhigh n

end Sys2Proof.Machine
end
